-- ==== Sys2Proof/Word.lean ====
section
/-! DEFINITION. Word.lean: the word types of the Z24 and access to tables of fixed length. -/

namespace Sys2Proof

/-- One byte of a frame or of a table record. -/
abbrev Byte := BitVec 8

/-- Two bytes, high byte first on every link (R1). -/
abbrev Half := BitVec 16

/-- Change entry `i` of a table. -/
def upd {α : Type} {n : Nat} (v : Vector α n) (i : Fin n) (f : α → α) : Vector α n :=
  v.set i.val (f v[i.val]) i.isLt

/-- Change every entry of a table alike. -/
def mapAll {α : Type} {n : Nat} (v : Vector α n) (f : α → α) : Vector α n :=
  ⟨⟨v.toList.map f⟩, by simp⟩

/-- Change every entry of a table, each by its own number. -/
def mapIdx {α : Type} {n : Nat} (v : Vector α n) (f : Fin n → α → α) : Vector α n :=
  ⟨⟨(List.finRange n).map fun i => f i v[i.val]⟩, by simp⟩

end Sys2Proof
end

