-- ==== Sys2Proof/Config.lean ====
section
/-! DEFINITION. Config.lean: the numbers every Z24 of this revision has. The spec leaves no value open that
an instruction computes, so there is no free value here. -/

namespace Sys2Proof.Config

/-- Pool buffers (R36, R16). -/
abbrev poolSize : Nat := 48

/-- Reception and LEVEL_SET frames are given a buffer while at least this many are free (R38). -/
def receptionMin : Nat := 5

/-- Replies and notices are given a buffer while at least this many are free (R38). -/
def originMin : Nat := 1

/-- Buffer places the zone queue holds at most (R44). -/
def zoneBufferPlaces : Nat := 44

/-- Attempts with a bit error at which a zone frame is dropped (R28). -/
def maxAttempts : Nat := 8

/-- Silence timer of a trunk port, ms (R18). -/
def silenceMs : Nat := 100

/-- Beat timer of a trunk port, ms (R23). -/
def beatMs : Nat := 20

/-- Stuck timer of the Zone Port, ms (R30). -/
def stuckMs : Nat := 100

/-- Recovery timer of the Zone Port, ms (R31). -/
def recoveryMs : Nat := 500

/-- Largest payload of a frame (R1). -/
def maxPayload : Nat := 22

/-- Bytes of a frame that a buffer stores (R6). -/
def storedBytes : Nat := 31

/-- A port counter holds at most this (R33). -/
def counterMax : Nat := 65535

/-- An age stops here, and an UNKNOWN point holds it (R73). -/
def ageMax : Nat := 65535

/-- Notices the Notice Queue holds (R168). -/
def noticeMax : Nat := 16

/-- Entries the Delayed Action List holds (R117). -/
def delayedMax : Nat := 128

/-- Initial hop budget after power-on reset (R63). -/
def hopDefault : BitVec 4 := 15

/-- Vendor code, part code and revision of R16. -/
def vendorCode : BitVec 16 := 0x00ED
def partCode : BitVec 16 := 0x0024
def revision : BitVec 8 := 1

end Sys2Proof.Config
end

