-- ==== Sys2Proof/Syntax.lean ====
section
/-! DEFINITION. Syntax.lean: the commands of the Z24, one constructor per row of spec/opcode_table.json. -/

namespace Sys2Proof

/-- A trunk port, TPA or TPB. -/
inductive Trunk where
  | a | b
  deriving DecidableEq, Repr

/-- The port at which a frame came in (R6, without INTERNAL). -/
inductive Port where
  | a | b | zone
  deriving DecidableEq, Repr

/-- A trunk port as a port of arrival. -/
def Trunk.port : Trunk → Port
  | .a => .a
  | .b => .b

/-- The (zone, device) pair from which a frame was sent (R4). -/
structure Origin where
  zone : Byte
  device : Byte
  deriving DecidableEq, Repr

/-- What FE knows of a consumed frame beside its payload (R54): arrival, arrival hop budget, origin. -/
structure Source where
  port : Port
  hop : BitVec 4
  origin : Origin
  deriving DecidableEq, Repr

/-- The levels found on the input lines at the end of power-on reset (R34, R35, R162).
A true trip is asserted; a true `loopOpen` is an open emergency-stop loop. -/
structure Pins where
  straps : BitVec 6
  loopOpen : Bool
  driveTrip : Vector Bool 4
  branchTrip : Vector Bool 4
  zoneDominant : Bool
  deriving DecidableEq, Repr

/-- The steps of the part. A frame's end carries the bytes of the frame that have arrived; so do a start mark and an
idle line, for a frame that they cut short (none unless given). Timer expiries and line changes carry the number of
what expires or changes; frames for device 0 carry their source and their payload bytes; management requests carry
source, tag and the argument bytes that follow the tag (R13). -/
inductive Instr where
  | powerOnReset (pins : Pins)
  | trunkFrameStart (t : Trunk) (cut : List Byte := [])
  | trunkFrameEnd (t : Trunk) (bytes : List Byte)
  | silenceTimerExpiry (t : Trunk)
  | beatTimerExpiry (t : Trunk)
  | trunkTransmitComplete (t : Trunk)
  | zoneFrameStart
  | zoneFrameEnd (bytes : List Byte)
  | zoneLineIdle (cut : List Byte := [])
  | arbitrationLost
  | bitError
  | zoneAttemptComplete
  | lineGoesDominant
  | lineGoesRecessive
  | stuckTimerExpiry
  | recoveryTimerExpiry
  | lbuFreeCountRise
  | mrFreeCountRise
  | classifyFrame
  | levelReq (src : Source) (payload : List Byte)
  | fadeEnd (n : Fin 96)
  | inrushEnd (n : Fin 96)
  | branchTripAsserted (b : Fin 4)
  | branchTripReleased (b : Fin 4)
  | scene (src : Source) (payload : List Byte)
  | dueEvent
  | armA (src : Source) (channel : Byte)
  | armB (src : Source) (channel : Byte)
  | runContinue (src : Source) (channel : Byte)
  | runFinish (src : Source) (channel : Byte)
  | stop (src : Source) (channel : Byte)
  | cancel (src : Source) (channel : Byte)
  | jogA (src : Source) (channel : Byte)
  | jogB (src : Source) (channel : Byte)
  | motionClear (src : Source) (channel : Byte)
  | moving (src : Source)
  | atRest (src : Source)
  | atLimit (src : Source)
  | stalled (src : Source)
  | faulted (src : Source)
  | armTimerExpiry (c : Fin 4)
  | gapTimerExpiry (c : Fin 4)
  | startTimerExpiry (c : Fin 4)
  | stopTimerExpiry (c : Fin 4)
  | travelTimerExpiry (c : Fin 4)
  | jogTimerExpiry (c : Fin 4)
  | estopLoopOpen
  | estopLoopClose
  | driveTripAsserted (c : Fin 4)
  | driveTripReleased (c : Fin 4)
  | freshnessExpiry (k : Fin 48)
  | identify (src : Source) (tag : Byte)
  | assignZone (src : Source) (tag zone : Byte)
  | writeRoute (src : Source) (tag : Byte) (index : Half) (record : List Byte)
  | writeLoad (src : Source) (tag : Byte) (index : Half) (record : List Byte)
  | writeLimit (src : Source) (tag : Byte) (index : Half) (record : List Byte)
  | writePoint (src : Source) (tag : Byte) (index : Half) (record : List Byte)
  | writeCondition (src : Source) (tag : Byte) (index : Half) (record : List Byte)
  | writeChannelPart0 (src : Source) (tag channel : Byte) (record : List Byte)
  | writeChannelPart1 (src : Source) (tag channel : Byte) (record : List Byte)
  | writeChannelPart2 (src : Source) (tag channel : Byte) (record : List Byte)
  | writeChannelPart3 (src : Source) (tag channel : Byte) (record : List Byte)
  | writeScene (src : Source) (tag : Byte) (index : Half) (record : List Byte)
  | writeAction (src : Source) (tag : Byte) (index : Half) (record : List Byte)
  | writeManagers (src : Source) (tag : Byte) (index : Half) (record : List Byte)
  | writeParam (src : Source) (tag : Byte) (index : Half) (record : List Byte)
  | read (src : Source) (tag table : Byte) (index : Half) (more : List Byte)
  | readStatusChannel (src : Source) (tag number flag : Byte)
  | readStatusBranch (src : Source) (tag number flag : Byte)
  | readStatusLoad (src : Source) (tag number flag : Byte)
  | readStatusPool (src : Source) (tag number flag : Byte)
  | readStatusPort (src : Source) (tag number flag : Byte)
  | setModeManual (src : Source) (tag selector point : Byte)
  | setModeFromPoint (src : Source) (tag point : Byte)
  | recallScene (src : Source) (tag scene : Byte)
  | clear (src : Source) (tag channel : Byte)
  | resetSegment (src : Source) (tag : Byte)
  | restart (src : Source) (tag : Byte)
  deriving DecidableEq, Repr

end Sys2Proof
end

