-- ==== Sys2Proof/WellFormed.lean ====
section
/-! DEFINITION. WellFormed.lean: what a link can carry. A received frame is followed to at most 9 + 255
bytes (R17, R24), and a good frame's payload is at most 22 bytes (R1). The machine gives every command a
meaning, well-formed or not; a term that fails the check here stands for no frame. -/

namespace Sys2Proof

/-- The bytes of one frame as a port follows it. -/
def bytesOk (bytes : List Byte) : Bool := bytes.length ≤ 264

/-- The payload of a good frame. -/
def payloadOk (payload : List Byte) : Bool := payload.length ≤ Config.maxPayload

/-- The record of a WRITE: the payload holds five bytes before it (R13). -/
def recordOk (record : List Byte) : Bool := record.length + 5 ≤ Config.maxPayload

/-- A manual selector of SET_MODE (R13). -/
def selectorOk (selector : Byte) : Bool := selector ≤ 3

/-- What the row's frame can hold. -/
def Instr.wf : Instr → Bool
  | .trunkFrameStart _ cut => bytesOk cut
  | .trunkFrameEnd _ bytes => bytesOk bytes
  | .zoneLineIdle cut => bytesOk cut
  | .zoneFrameEnd bytes => bytesOk bytes
  | .levelReq _ payload => payloadOk payload
  | .scene _ payload => payloadOk payload
  | .writeRoute _ _ _ record => recordOk record
  | .writeLoad _ _ _ record => recordOk record
  | .writeLimit _ _ _ record => recordOk record
  | .writePoint _ _ _ record => recordOk record
  | .writeCondition _ _ _ record => recordOk record
  | .writeChannelPart0 _ _ _ record => recordOk record
  | .writeChannelPart1 _ _ _ record => recordOk record
  | .writeChannelPart2 _ _ _ record => recordOk record
  | .writeChannelPart3 _ _ _ record => recordOk record
  | .writeScene _ _ _ record => recordOk record
  | .writeAction _ _ _ record => recordOk record
  | .writeManagers _ _ _ record => recordOk record
  | .writeParam _ _ _ record => recordOk record
  | .read _ _ _ _ more => recordOk more
  | .setModeManual _ _ selector _ => selectorOk selector
  | .powerOnReset _ | .silenceTimerExpiry _ | .beatTimerExpiry _
  | .trunkTransmitComplete _ | .zoneFrameStart | .arbitrationLost | .bitError
  | .zoneAttemptComplete | .lineGoesDominant | .lineGoesRecessive | .stuckTimerExpiry
  | .recoveryTimerExpiry | .lbuFreeCountRise | .mrFreeCountRise | .classifyFrame | .fadeEnd _
  | .inrushEnd _ | .branchTripAsserted _ | .branchTripReleased _ | .dueEvent | .armA _ _ | .armB _ _
  | .runContinue _ _ | .runFinish _ _ | .stop _ _ | .cancel _ _ | .jogA _ _ | .jogB _ _
  | .motionClear _ _ | .moving _ | .atRest _ | .atLimit _ | .stalled _ | .faulted _
  | .armTimerExpiry _ | .gapTimerExpiry _ | .startTimerExpiry _ | .stopTimerExpiry _
  | .travelTimerExpiry _ | .jogTimerExpiry _ | .estopLoopOpen | .estopLoopClose
  | .driveTripAsserted _ | .driveTripReleased _ | .freshnessExpiry _ | .identify _ _
  | .assignZone _ _ _ | .readStatusChannel _ _ _ _ | .readStatusBranch _ _ _ _
  | .readStatusLoad _ _ _ _ | .readStatusPool _ _ _ _ | .readStatusPort _ _ _ _
  | .setModeFromPoint _ _ _ | .recallScene _ _ _ | .clear _ _ _ | .resetSegment _ _
  | .restart _ _ => true

end Sys2Proof
end

