-- ==== Sys2Proof/Machine/State.lean ====
section
/-! DEFINITION. Machine/State.lean: the state of the Z24, one structure per block (00_scope.md 1.2), the
reasons a step can stop, and the state after power-on reset. A timer is `none` while stopped and
`some d` while it runs to the time `d` of the clock `now` (log 2). -/

namespace Sys2Proof.Machine

/-! ### Ports -/

/-- Link state of a trunk port (R18). -/
inductive Link where
  | down | up
  deriving DecidableEq, Repr

/-- Segment state of the Zone Port (R30). -/
inductive Segment where
  | normal | faulted
  deriving DecidableEq, Repr

/-- The six counters of a port (R33). -/
structure Counters where
  good : Nat
  badCheck : Nat
  longOrAborted : Nat
  noBuffer : Nat
  transmitted : Nat
  txFailed : Nat
  deriving DecidableEq, Repr

/-- A reception in progress: the buffer it fills, or none when the frame is dropped whole (R20, R25). -/
structure Reception where
  buf : Option (Fin 48)
  deriving DecidableEq, Repr

/-- DRIVE commands, codes 1 to 4 (R10). -/
inductive DriveCode where
  | startA | startB | stop | halt
  deriving DecidableEq, Repr

/-- What a place stands for (R42). -/
inductive PlaceKind where
  | buffer (b : Fin 48) (cls : Fin 4) (hop : BitVec 4) (rewrite : Option Byte)
  | slot (c : Fin 4)
  deriving DecidableEq, Repr

/-- A place of an egress queue, with its position in order of acceptance (R42). -/
structure Place where
  kind : PlaceKind
  entry : Nat
  deriving DecidableEq, Repr

/-- An egress queue: its places, head first, and the entry number of the next place (R42, R43). -/
structure Queue where
  places : List Place
  nextEntry : Nat
  deriving DecidableEq, Repr

/-- What a trunk transmitter sends (R22, R23). -/
inductive TxOrigin where
  | beat
  | buffer (b : Fin 48)
  deriving DecidableEq, Repr

/-- A trunk transmission in progress, with the bytes on the line. -/
structure Transmission where
  origin : TxOrigin
  bytes : List Byte
  deriving DecidableEq, Repr

/-- TPA or TPB (section 2.2.1). -/
structure TrunkPort where
  link : Link
  silence : Option Nat
  beat : Option Nat
  rx : Option Reception
  tx : Option Transmission
  queue : Queue
  counters : Counters
  deriving DecidableEq, Repr

/-- Where the frame in the transmit shifter comes from (R26). -/
inductive ShifterOrigin where
  | buffer (b : Fin 48)
  | slot (c : Fin 4) (code : DriveCode)
  deriving DecidableEq, Repr

/-- The frame in the transmit shifter and its attempt count (R26, R28). -/
structure Shifter where
  origin : ShifterOrigin
  bytes : List Byte
  attempts : Nat
  deriving DecidableEq, Repr

/-- The Zone Port (section 2.3.1), with the level of its line, whether the line is idle (R24), and
whether an attempt is on the line. -/
structure ZonePort where
  segment : Segment
  lineDominant : Bool
  lineIdle : Bool
  rx : Option Reception
  shifter : Option Shifter
  sending : Bool
  queue : Queue
  stuck : Option Nat
  recovery : Option Nat
  counters : Counters
  deriving DecidableEq, Repr

/-! ### Frame Pool -/

/-- Arrival field of a status record (R6). -/
inductive Arrival where
  | port (p : Port)
  | internal
  deriving DecidableEq, Repr

/-- Status record of a frame (R6). -/
structure FrameStatus where
  good : Bool
  tooLong : Bool
  aborted : Bool
  arrival : Arrival
  deriving DecidableEq, Repr

/-- A pool buffer: whether it is on the free list, its reference count, its stored bytes, its status
record (R6, R36, R37). -/
structure Buffer where
  free : Bool
  refs : Nat
  bytes : List Byte
  status : FrameStatus
  deriving DecidableEq, Repr

/-- The Frame Pool, with the rises of the free count reported to LBU and to MR and not yet taken there
(R37, R41). -/
structure Pool where
  bufs : Vector Buffer 48
  riseLbu : Nat
  riseMr : Nat
  deriving DecidableEq, Repr

/-! ### Forwarding Engine -/

/-- A frame of the hold list (R50). -/
structure Held where
  buf : Fin 48
  port : Port
  deriving DecidableEq, Repr

/-- Destination types (R2). -/
inductive DestType where
  | device | group | zoneAll | shipAll
  deriving DecidableEq, Repr

/-- Ingress side of a route entry (R55). -/
inductive Ingress where
  | trunk | zone | any
  deriving DecidableEq, Repr

/-- Actions of a route entry (R59). -/
inductive Action where
  | pass | deliver | uplink | copy | drop
  deriving DecidableEq, Repr

/-- A Route Table entry (R55); `none` stands for ANY, and for an absent rewrite. -/
structure Route where
  valid : Bool
  ingress : Ingress
  kind : Option (Fin 16)
  dtype : Option DestType
  value : Option (Byte × Byte)
  originZone : Option Byte
  action : Action
  rewrite : Option Byte
  deriving DecidableEq, Repr

/-- The Forwarding Engine (R50, R55, R63). -/
structure Forwarding where
  hold : List Held
  routes : Vector Route 64
  hopBudget : BitVec 4
  deriving DecidableEq, Repr

/-! ### Point Monitor -/

/-- Runtime state of a point: UNKNOWN (value 0, age 65535), or VALID with its value and the time of its
last update, from which its age is counted (R67, R73). -/
inductive PointState where
  | unknown
  | valid (value : Half) (updated : Nat)
  deriving DecidableEq, Repr

/-- Configuration of a point (R67). -/
structure PointCfg where
  valid : Bool
  source : Origin
  position : Fin 10
  deriving DecidableEq, Repr

/-- A point (R67). -/
structure Point where
  cfg : PointCfg
  state : PointState
  deriving DecidableEq, Repr

/-- The Point Monitor. -/
structure PointMonitor where
  points : Vector Point 64
  deriving DecidableEq, Repr

/-! ### Load Budget Unit -/

/-- Types of a load (R78). -/
inductive LoadType where
  | switched | dimmed | motor
  deriving DecidableEq, Repr

/-- States of a load (R78). -/
inductive LoadState where
  | off | inrush | on | shed
  deriving DecidableEq, Repr

/-- A load's fade timer, with the time of its expiry (R78). -/
inductive FadeTimer where
  | stopped
  | rising (due : Nat)
  | falling (due : Nat)
  deriving DecidableEq, Repr

/-- A load's inrush timer (R78). -/
inductive InrushTimer where
  | stopped
  | waiting
  | running (due : Nat)
  deriving DecidableEq, Repr

/-- Configuration of a load (R78). -/
structure LoadCfg where
  valid : Bool
  device : Byte
  output : Fin 8
  type : LoadType
  branch : Fin 4
  priority : Fin 8
  full : Nat
  inrush : Nat
  inrushTime : Nat
  minLevel : Nat
  deriving DecidableEq, Repr

/-- A load (R78). -/
structure Load where
  cfg : LoadCfg
  state : LoadState
  granted : Nat
  committed : Nat
  requested : Nat
  demand : Nat
  fade : FadeTimer
  inrushTimer : InrushTimer
  lastFade : Nat
  due : Bool
  bound : Option (Fin 4)
  waiting : Option (Fin 4)
  shedOrder : Nat
  deriving DecidableEq, Repr

/-- The limits of one source mode (R86). -/
structure Limits where
  branch : Vector Nat 4
  total : Nat
  deriving DecidableEq, Repr

/-- Source modes (R86). -/
inductive SourceMode where
  | shore | genOne | genTwo | inverter
  deriving DecidableEq, Repr

/-- The selector of the source mode (R87). -/
inductive Selector where
  | manual
  | fromPoint (k : Fin 64)
  deriving DecidableEq, Repr

/-- The Load Budget Unit (chapter 6). -/
structure Budget where
  loads : Vector Load 96
  limits : Vector Limits 4
  selector : Selector
  mode : SourceMode
  trip : Vector Bool 4
  overBranch : Vector Bool 4
  overTotal : Bool
  admission : List (Fin 96)
  shedList : List (Fin 96)
  nextShed : Nat
  deriving DecidableEq, Repr

/-! ### Scene Expander -/

/-- A scene record (R107). -/
structure SceneRec where
  valid : Bool
  first : Nat
  count : Nat
  deriving DecidableEq, Repr

/-- An action (R108). -/
structure ActionRec where
  load : Nat
  level : Nat
  fade : Nat
  delay : Nat
  deriving DecidableEq, Repr

/-- An ACTIVE scene slot (R110). -/
structure SceneSlot where
  scene : Fin 128
  order : Nat
  deriving DecidableEq, Repr

/-- An entry of the Delayed Action List (R117). -/
structure Delayed where
  due : Nat
  slot : Fin 4
  action : Nat
  load : Nat
  level : Nat
  fade : Nat
  deriving DecidableEq, Repr

/-- The Scene Expander (chapter 7); a FREE slot is `none`. -/
structure SceneExpander where
  scenes : Vector SceneRec 128
  actions : Vector ActionRec 1024
  slots : Vector (Option SceneSlot) 4
  nextRecall : Nat
  delayed : List Delayed
  deriving DecidableEq, Repr

/-! ### Drive Supervisor -/

/-- States of a channel (R123). -/
inductive ChanState where
  | off | idle | armed | starting | running | jogging | stopping | fault
  deriving DecidableEq, Repr

/-- Start phases (R126). -/
inductive Phase where
  | none | shedding | queued | sent
  deriving DecidableEq, Repr

/-- Modes of a motion (R123). -/
inductive MotionMode where
  | run | jog
  deriving DecidableEq, Repr

/-- Directions of travel (R123). -/
inductive Direction where
  | a | b
  deriving DecidableEq, Repr

/-- Stop causes (R15). -/
inductive StopCause where
  | none | finish | stop | gap | limit | travelLimit | jogEnd | interlock | stall
  deriving DecidableEq, Repr

/-- Fault causes (R15). -/
inductive FaultCause where
  | none | estop | trip | branchTrip | segment | stall | controllerFault | noStart | noStop
  deriving DecidableEq, Repr

/-- The six timings of a channel (R123): ms, and seconds for the travel limit. -/
structure Timings where
  armWindow : Nat
  runGap : Nat
  startTimeout : Nat
  stopTimeout : Nat
  travelLimit : Nat
  jogTime : Nat
  deriving DecidableEq, Repr

/-- The six timers of a channel (R146). -/
structure ChanTimers where
  arm : Option Nat
  gap : Option Nat
  start : Option Nat
  stop : Option Nat
  travel : Option Nat
  jog : Option Nat
  deriving DecidableEq, Repr

/-- A DRIVE command in its slot, with the controller device recorded for it (R45). -/
structure Command where
  code : DriveCode
  device : Byte
  deriving DecidableEq, Repr

/-- Configuration of a channel (R123). Bit `c` of `exclusion` names channel `c` (R14). -/
structure ChanCfg where
  valid : Bool
  exclusion : BitVec 4
  controller : Byte
  motorLoad : Fin 96
  consoles : List Origin
  timings : Timings
  listA : List (Fin 48)
  listB : List (Fin 48)
  deriving DecidableEq, Repr

/-- A channel (R123). -/
structure Channel where
  cfg : ChanCfg
  state : ChanState
  phase : Phase
  mode : MotionMode
  direction : Direction
  owner : Option Origin
  stopCause : StopCause
  timers : ChanTimers
  command : Option Command
  enable : Bool
  faultCause : FaultCause
  faultState : ChanState
  deriving DecidableEq, Repr

/-- The Drive Supervisor (chapter 8). -/
structure Drive where
  channels : Vector Channel 4
  loopOpen : Bool
  trip : Vector Bool 4
  deriving DecidableEq, Repr

/-! ### Interlock Evaluator -/

/-- Tests of a condition (R151). -/
inductive CondTest where
  | eq | ne | lt | ge | bitsSet | bitsClear
  deriving DecidableEq, Repr

/-- A condition (R151). -/
structure Condition where
  valid : Bool
  point : Fin 64
  test : CondTest
  operand : Half
  limit : Nat
  deriving DecidableEq, Repr

/-- The Interlock Evaluator (chapter 9). -/
structure Interlock where
  conditions : Vector Condition 48
  deriving DecidableEq, Repr

/-! ### Management Responder -/

/-- Kind and cause of a notice (R12). -/
inductive Cause where
  | unauthorized | notConfigured | estopOpen | excluded | trip | interlock | busy | armExpired
  | budget | notOwner | stillPresent | foreignDrive | controllerRest | fault
  | shed | restored | clamped | refused | overcommit | motorLoad
  | sceneReplaced | scenePreempted | sceneUndefined | sceneDelayLost
  | txFailed | segmentFault
  deriving DecidableEq, Repr

/-- A queued notice (R12, R168). -/
structure Notice where
  cause : Cause
  subject : Nat
  value : Nat
  lost : Bool
  deriving DecidableEq, Repr

/-- A Manager List entry (R160). -/
structure Manager where
  valid : Bool
  origin : Origin
  deriving DecidableEq, Repr

/-- A pending restart reply (R167). -/
structure PendingReply where
  code : Byte
  tag : Byte
  origin : Origin
  port : Port
  deriving DecidableEq, Repr

/-- The Management Responder (chapter 10). -/
structure Management where
  ownZone : Byte
  straps : BitVec 6
  managers : Vector Manager 2
  pendingReply : Option PendingReply
  notices : List Notice
  headMark : Nat
  waitUp : Bool
  deriving DecidableEq, Repr

/-! ### The part -/

/-- The whole part, the model's clock and the queue of waiting commands. -/
structure State where
  tpa : TrunkPort
  tpb : TrunkPort
  zp : ZonePort
  pool : Pool
  fe : Forwarding
  pm : PointMonitor
  lbu : Budget
  sx : SceneExpander
  ds : Drive
  ie : Interlock
  mr : Management
  now : Nat
  pending : List Instr
  deriving DecidableEq, Repr

/-- Nothing in the spec stops the part: what it calls a fault is state (a channel in FAULT, a segment that
is FAULTED). No one raises a fault, so the type has no constructor. -/
inductive Fault where
  deriving DecidableEq, Repr

/-- Reasons to give a command no meaning. -/
inductive Refusal where
  /-- The command has no meaning yet. Raised by an arm of `exec` only; safe. No arm raises it. -/
  | notModelled (mnemonic : String)
  deriving DecidableEq, Repr

/-- The outcome of a command. -/
abbrev Out := Host.Outcome State Fault Refusal

/-! ### Power-on values -/

def Counters.zero : Counters := ⟨0, 0, 0, 0, 0, 0⟩

def Queue.empty : Queue := ⟨[], 0⟩

def ChanTimers.stopped : ChanTimers := ⟨none, none, none, none, none, none⟩

/-- R34: a trunk port after power-on reset and after RESTART. -/
def TrunkPort.atReset (now : Nat) : TrunkPort :=
  { link := .down, silence := none, beat := some (now + Config.beatMs), rx := none, tx := none,
    queue := .empty, counters := .zero }

/-- R34: the Zone Port after power-on reset and after RESTART. -/
def ZonePort.atReset (dominant idle : Bool) (now : Nat) : ZonePort :=
  { segment := .normal, lineDominant := dominant, lineIdle := idle, rx := none, shifter := none,
    sending := false, queue := .empty,
    stuck := if dominant then some (now + Config.stuckMs) else none,
    recovery := none, counters := .zero }

def FrameStatus.blank : FrameStatus := ⟨false, false, false, .internal⟩

/-- R48; the stored bytes and status of a buffer nothing has written are log 10. -/
def Pool.atPowerOn : Pool :=
  { bufs := .replicate 48 ⟨true, 0, [], .blank⟩, riseLbu := 0, riseMr := 0 }

/-- R55: an entry after power-on reset, every field reading 0. -/
def Route.zero : Route :=
  { valid := false, ingress := .trunk, kind := some 0, dtype := some .device, value := some (0, 0),
    originZone := some 0, action := .pass, rewrite := none }

/-- R66. -/
def Forwarding.atPowerOn : Forwarding :=
  { hold := [], routes := .replicate 64 .zero, hopBudget := Config.hopDefault }

/-- R77. -/
def PointMonitor.atPowerOn : PointMonitor :=
  { points := .replicate 64 ⟨⟨false, ⟨0, 0⟩, 0⟩, .unknown⟩ }

/-- R106: a load after power-on reset. -/
def Load.zero : Load :=
  { cfg := { valid := false, device := 0, output := 0, type := .switched, branch := 0, priority := 0,
             full := 0, inrush := 0, inrushTime := 0, minLevel := 0 },
    state := .off, granted := 0, committed := 0, requested := 0, demand := 0, fade := .stopped,
    inrushTimer := .stopped, lastFade := 0, due := false, bound := none, waiting := none,
    shedOrder := 0 }

/-- R106. -/
def Budget.atPowerOn (branchTrip : Vector Bool 4) : Budget :=
  { loads := .replicate 96 .zero, limits := .replicate 4 ⟨.replicate 4 0, 0⟩, selector := .manual,
    mode := .shore, trip := branchTrip, overBranch := .replicate 4 false, overTotal := false,
    admission := [], shedList := [], nextShed := 0 }

/-- R122. -/
def SceneExpander.atPowerOn : SceneExpander :=
  { scenes := .replicate 128 ⟨false, 0, 0⟩, actions := .replicate 1024 ⟨0, 0, 0, 0⟩,
    slots := .replicate 4 none, nextRecall := 1, delayed := [] }

/-- R123, R150: a channel after power-on reset. -/
def Channel.zero : Channel :=
  { cfg := { valid := false, exclusion := 0, controller := 0, motorLoad := 0, consoles := [],
             timings := ⟨100, 50, 100, 100, 1, 50⟩, listA := [], listB := [] },
    state := .off, phase := .none, mode := .run, direction := .a, owner := none, stopCause := .none,
    timers := .stopped, command := none, enable := false, faultCause := .none, faultState := .off }

/-- R150. -/
def Drive.atPowerOn (loopOpen : Bool) (trip : Vector Bool 4) : Drive :=
  { channels := .replicate 4 .zero, loopOpen := loopOpen, trip := trip }

/-- R158. -/
def Interlock.atPowerOn : Interlock :=
  { conditions := .replicate 48 ⟨false, 0, .eq, 0, 0⟩ }

/-- R162: the own zone that a strap value gives. -/
def zoneOfStraps (straps : BitVec 6) : Byte :=
  if 1 ≤ straps ∧ straps ≤ 60 then straps.zeroExtend 8 else 0

/-- R162, R170. -/
def Management.atPowerOn (straps : BitVec 6) : Management :=
  { ownZone := zoneOfStraps straps, straps := straps,
    managers := .replicate 2 ⟨false, ⟨0, 0⟩⟩, pendingReply := none, notices := [], headMark := 0,
    waitUp := false }

/-- The part after power-on reset, with the levels found on its input lines (R34, R48, R66, R77, R106,
R122, R150, R158, R170). -/
def State.powerOn (pins : Pins) (now : Nat) (pending : List Instr) : State :=
  { tpa := .atReset now, tpb := .atReset now, zp := .atReset pins.zoneDominant false now,
    pool := .atPowerOn, fe := .atPowerOn, pm := .atPowerOn, lbu := .atPowerOn pins.branchTrip,
    sx := .atPowerOn, ds := .atPowerOn pins.loopOpen pins.driveTrip, ie := .atPowerOn,
    mr := .atPowerOn pins.straps, now := now, pending := pending }

/-- The input levels of `State.reset`. DESIGN CHOICE (log 9; unsafe): straps 0, loop closed, every trip
released, zone line recessive. -/
def Pins.quiet : Pins :=
  { straps := 0, loopOpen := false, driveTrip := .replicate 4 false, branchTrip := .replicate 4 false,
    zoneDominant := false }

/-- The part right after power-on reset, no command waiting. -/
def State.reset : State := State.powerOn Pins.quiet 0 []

end Sys2Proof.Machine
end

