-- ==== Sys2Proof/Machine/Operands.lean ====
section
/-! DEFINITION. Machine/Operands.lean: the bytes of frames (chapter 1): fields of a header, the check, the
frames the Z24 builds, and the codes of R2, R10, R12, R13 and R15. -/

namespace Sys2Proof.Machine

/-! ### Bytes -/

/-- Byte `i` of a list, 0 where it is absent (log 14). -/
def byteAt (l : List Byte) (i : Nat) : Byte := l.getD i 0

/-- Bytes `i` and `i + 1`, high byte first (R1). -/
def halfAt (l : List Byte) (i : Nat) : Half := byteAt l i ++ byteAt l (i + 1)

/-- A byte holding a number below 256. -/
def byteOf (n : Nat) : Byte := BitVec.ofNat 8 n

/-- A number in two bytes, high byte first (R1). -/
def bytes2 (n : Nat) : List Byte := [byteOf (n / 256), byteOf n]

/-- A number in three bytes, high byte first (R15). -/
def bytes3 (n : Nat) : List Byte := [byteOf (n / 65536), byteOf (n / 256), byteOf n]

/-- The two bytes of a 16-bit pattern, high byte first. -/
def halfBytes (h : Half) : List Byte := [h.extractLsb' 8 8, h.extractLsb' 0 8]

/-- Bit `k` of a flag byte as a byte, for building flag bytes. -/
def flagBit (b : Bool) (k : Nat) : Byte := if b then (1 : Byte) <<< k else 0

/-! ### The check (R5) -/

/-- One message bit into the check register. -/
def crcBit (reg : Half) (bit : Bool) : Half :=
  if reg.msb != bit then (reg <<< 1) ^^^ 0x1021 else reg <<< 1

/-- The bits of a byte, most significant first. -/
def bitsOf (b : Byte) : List Bool :=
  [b.getLsbD 7, b.getLsbD 6, b.getLsbD 5, b.getLsbD 4, b.getLsbD 3, b.getLsbD 2, b.getLsbD 1,
    b.getLsbD 0]

/-- One byte into the check register. -/
def crcByte (reg : Half) (b : Byte) : Half := (bitsOf b).foldl crcBit reg

/-- The check register after a run of bytes, from all ones. -/
def crc16 (bytes : List Byte) : Half := bytes.foldl crcByte 0xFFFF

/-- A frame's body with its two check bytes (R1, R5). -/
def sealFrame (body : List Byte) : List Byte := body ++ halfBytes (crc16 body)

/-! ### Header fields (R1 to R4) -/

/-- Kind, bits 7 to 4 of byte 0. -/
def frameKind (f : List Byte) : Fin 16 := (byteAt f 0).extractLsb' 4 4 |>.toFin

/-- Class, bits 3 to 2 of byte 0. -/
def frameClass (f : List Byte) : Fin 4 := (byteAt f 0).extractLsb' 2 2 |>.toFin

/-- Destination type of a two-bit code (R2). -/
def DestType.ofCode (c : BitVec 2) : DestType :=
  if c = 0 then .device else if c = 1 then .group else if c = 2 then .zoneAll else .shipAll

/-- Code of a destination type (R2). -/
def DestType.code : DestType → Nat
  | .device => 0
  | .group => 1
  | .zoneAll => 2
  | .shipAll => 3

/-- Destination type, bits 1 to 0 of byte 0. -/
def frameType (f : List Byte) : DestType := .ofCode ((byteAt f 0).extractLsb' 0 2)

/-- Origin, bytes 3 and 4 (R4). -/
def frameOrigin (f : List Byte) : Origin := ⟨byteAt f 3, byteAt f 4⟩

/-- Hop budget, the low four bits of byte 5 (R4). -/
def frameHop (f : List Byte) : BitVec 4 := (byteAt f 5).extractLsb' 0 4

/-- Payload length N, byte 6 (R1). -/
def frameLen (f : List Byte) : Nat := (byteAt f 6).toNat

/-- The payload: N bytes from byte 7 (R1). -/
def framePayload (f : List Byte) : List Byte := (f.drop 7).take (frameLen f)

/-- Addressed to zone `z` (R3). -/
def addressedToZone (f : List Byte) (z : Byte) : Bool :=
  frameType f != .shipAll && byteAt f 1 == z

/-- Addressed to device 0 of zone `z` (R3). -/
def addressedToDevice0 (f : List Byte) (z : Byte) : Bool :=
  frameType f == .device && byteAt f 1 == z && byteAt f 2 == 0

/-- An origin as the value of a notice: zone in the high byte, device in the low byte (R12). -/
def originValue (o : Origin) : Nat := o.zone.toNat * 256 + o.device.toNat

/-! ### Kinds (R7) -/

def kindBeat : Fin 16 := 0
def kindLevelReq : Fin 16 := 1
def kindLevelSet : Fin 16 := 2
def kindScene : Fin 16 := 3
def kindState : Fin 16 := 4
def kindMotion : Fin 16 := 5
def kindDrive : Fin 16 := 6
def kindMgmtReq : Fin 16 := 7
def kindMgmtReply : Fin 16 := 8
def kindNotice : Fin 16 := 9

/-! ### Frames received -/

/-- What a port has of a frame: its bytes up to the announced end (R1, R17, R24). -/
def frameOf (bytes : List Byte) : List Byte :=
  if bytes.length < 7 then bytes else bytes.take (9 + frameLen bytes)

/-- All 9 + N bytes have arrived (R17, R24). -/
def frameComplete (bytes : List Byte) : Bool :=
  7 ≤ bytes.length && 9 + frameLen bytes ≤ bytes.length

/-- Byte 6 has arrived and exceeds 22 (R1, R21, R25). -/
def frameTooLong (bytes : List Byte) : Bool :=
  7 ≤ bytes.length && Config.maxPayload < frameLen bytes

/-- The check of a complete frame agrees (R5). -/
def checkGood (f : List Byte) : Bool :=
  f.drop (7 + frameLen f) == halfBytes (crc16 (f.take (7 + frameLen f)))

/-! ### Frames sent -/

/-- Byte 0 of a frame (R2). -/
def byte0 (kind : Fin 16) (cls : Fin 4) (t : DestType) : Byte :=
  byteOf (kind.val * 16 + cls.val * 4 + t.code)

/-- The bytes of a frame the Z24 originates (R1, R4, R8): origin is device 0 of the own zone. -/
def buildFrame (kind : Fin 16) (cls : Fin 4) (t : DestType) (b1 b2 own : Byte) (hop : BitVec 4)
    (payload : List Byte) : List Byte :=
  sealFrame ([byte0 kind cls t, b1, b2, own, 0, hop.zeroExtend 8, byteOf payload.length] ++ payload)

/-- The bytes a port sends of a stored frame: the place's hop budget in byte 5 with zero high bits, the
place's rewrite group in byte 2, the check computed anew (R5, R22, R26). -/
def lineBytes (stored : List Byte) (hop : BitVec 4) (rewrite : Option Byte) : List Byte :=
  let body := (stored.take (7 + frameLen stored)).set 5 (hop.zeroExtend 8)
  sealFrame (match rewrite with
    | some g => body.set 2 g
    | none => body)

/-- A BEAT (R8, R23). -/
def beatFrame (own : Byte) : List Byte := buildFrame kindBeat 3 .shipAll 0 0 own 1 []

/-! ### DRIVE codes and MOTION verbs (R10) -/

def DriveCode.code : DriveCode → Nat
  | .startA => 1
  | .startB => 2
  | .stop => 3
  | .halt => 4

/-- A command code is a START. -/
def DriveCode.isStart : DriveCode → Bool
  | .startA | .startB => true
  | .stop | .halt => false

/-- Indications of a controller, codes 8 to 12. -/
inductive Indication where
  | moving | atRest | atLimit | stalled | faulted
  deriving DecidableEq, Repr

/-- The indication of a code; a command code and an unknown code have none. -/
def Indication.ofCode (b : Byte) : Option Indication :=
  if b = 8 then some .moving else if b = 9 then some .atRest else if b = 10 then some .atLimit
  else if b = 11 then some .stalled else if b = 12 then some .faulted else none

def Indication.code : Indication → Byte
  | .moving => 8
  | .atRest => 9
  | .atLimit => 10
  | .stalled => 11
  | .faulted => 12

/-- MOTION verbs, codes 1 to 9. -/
inductive Verb where
  | armA | armB | runContinue | runFinish | stop | cancel | jogA | jogB | clear
  deriving DecidableEq, Repr

def Verb.ofCode (b : Byte) : Option Verb :=
  if b = 1 then some .armA else if b = 2 then some .armB else if b = 3 then some .runContinue
  else if b = 4 then some .runFinish else if b = 5 then some .stop else if b = 6 then some .cancel
  else if b = 7 then some .jogA else if b = 8 then some .jogB else if b = 9 then some .clear
  else none

def Verb.code : Verb → Byte
  | .armA => 1
  | .armB => 2
  | .runContinue => 3
  | .runFinish => 4
  | .stop => 5
  | .cancel => 6
  | .jogA => 7
  | .jogB => 8
  | .clear => 9

/-- A DRIVE command as the Zone Port builds it from a slot (R8, R26). -/
def driveFrame (cmd : Command) (own : Byte) (hop : BitVec 4) : List Byte :=
  buildFrame kindDrive 0 .device own cmd.device own hop [byteOf cmd.code.code]

/-! ### Notices (R12) -/

/-- Notice kind and cause codes: 0 CHANNEL, 1 BUDGET, 2 SCENE, 3 PORT. -/
def Cause.codes : Cause → Nat × Nat
  | .unauthorized => (0, 0)
  | .notConfigured => (0, 1)
  | .estopOpen => (0, 2)
  | .excluded => (0, 3)
  | .trip => (0, 4)
  | .interlock => (0, 5)
  | .busy => (0, 6)
  | .armExpired => (0, 7)
  | .budget => (0, 8)
  | .notOwner => (0, 9)
  | .stillPresent => (0, 10)
  | .foreignDrive => (0, 11)
  | .controllerRest => (0, 12)
  | .fault => (0, 13)
  | .shed => (1, 0)
  | .restored => (1, 1)
  | .clamped => (1, 2)
  | .refused => (1, 3)
  | .overcommit => (1, 4)
  | .motorLoad => (1, 5)
  | .sceneReplaced => (2, 0)
  | .scenePreempted => (2, 1)
  | .sceneUndefined => (2, 2)
  | .sceneDelayLost => (2, 3)
  | .txFailed => (3, 0)
  | .segmentFault => (3, 1)

/-- The six payload bytes of a NOTICE (R12). -/
def noticePayload (n : Notice) : List Byte :=
  [byteOf n.cause.codes.1, byteOf n.subject, byteOf n.cause.codes.2] ++ bytes2 n.value ++
    [flagBit n.lost 0]

/-! ### Codes of the status data (R15) -/

def ChanState.code : ChanState → Nat
  | .off => 0
  | .idle => 1
  | .armed => 2
  | .starting => 3
  | .running => 4
  | .jogging => 5
  | .stopping => 6
  | .fault => 7

def Phase.code : Phase → Nat
  | .none => 0
  | .shedding => 1
  | .queued => 2
  | .sent => 3

def MotionMode.code : MotionMode → Nat
  | .run => 0
  | .jog => 1

def Direction.code : Direction → Nat
  | .a => 0
  | .b => 1

def StopCause.code : StopCause → Nat
  | .none => 0
  | .finish => 1
  | .stop => 2
  | .gap => 3
  | .limit => 4
  | .travelLimit => 5
  | .jogEnd => 6
  | .interlock => 7
  | .stall => 8

def FaultCause.code : FaultCause → Nat
  | .none => 0
  | .estop => 1
  | .trip => 2
  | .branchTrip => 3
  | .segment => 4
  | .stall => 5
  | .controllerFault => 6
  | .noStart => 7
  | .noStop => 8

def LoadState.code : LoadState → Nat
  | .off => 0
  | .inrush => 1
  | .on => 2
  | .shed => 3

/-- Source modes by number (R86). -/
def SourceMode.index : SourceMode → Fin 4
  | .shore => 0
  | .genOne => 1
  | .genTwo => 2
  | .inverter => 3

def SourceMode.ofIndex (i : Fin 4) : SourceMode :=
  if i = 0 then .shore else if i = 1 then .genOne else if i = 2 then .genTwo else .inverter

/-! ### Management codes (R13, R14) -/

/-- Statuses of a reply. -/
inductive Status where
  | ok | okClamped | badRequest | badTable | badIndex | badValue | inUse | alreadySet | notState
  | stillPresent
  deriving DecidableEq, Repr

def Status.code : Status → Byte
  | .ok => 0
  | .okClamped => 1
  | .badRequest => 2
  | .badTable => 3
  | .badIndex => 4
  | .badValue => 5
  | .inUse => 6
  | .alreadySet => 7
  | .notState => 8
  | .stillPresent => 9

/-- The payload of a management request: code, tag, arguments (R13). -/
def requestPayload (code tag : Byte) (args : List Byte) : List Byte := code :: tag :: args

/-- Arguments of a WRITE or READ: table, index, record or count (R13). -/
def tableArgs (table : Byte) (index : Half) (record : List Byte) : List Byte :=
  table :: (halfBytes index ++ record)

end Sys2Proof.Machine
end

