-- ==== Sys2Proof/Machine/Records.lean ====
section
/-! DEFINITION. Machine/Records.lean: table records as bytes (R14), and the decoding of management requests
in the order of R13. A record decoder answers `none` where a coded field holds a value outside its codes
(step 6 of R13: BAD_VALUE). -/

namespace Sys2Proof.Machine

/-! ### ROUTE (R14, R55) -/

def Ingress.ofCode (c : BitVec 2) : Option Ingress :=
  if c = 0 then some .trunk else if c = 1 then some .zone else if c = 2 then some .any else none

def Ingress.code : Ingress → Byte
  | .trunk => 0
  | .zone => 1
  | .any => 2

def Action.ofCode (b : Byte) : Option Action :=
  if b = 0 then some .pass else if b = 1 then some .deliver else if b = 2 then some .uplink
  else if b = 3 then some .copy else if b = 4 then some .drop else none

def Action.code : Action → Byte
  | .pass => 0
  | .deliver => 1
  | .uplink => 2
  | .copy => 3
  | .drop => 4

/-- A pattern field: open when its ANY bit is set, else within its codes. -/
def patternField {α : Type} (any : Bool) (value : Option α) : Option (Option α) :=
  if any then some none else value.map some

/-- Kind of a ROUTE record: 0 to 15. -/
def kindOfByte (b : Byte) : Option (Fin 16) := if h : b.toNat < 16 then some ⟨b.toNat, h⟩ else none

/-- Destination type of a ROUTE record; above 3 is the further case of R55, also BAD_VALUE. -/
def dtypeOfByte (b : Byte) : Option DestType := if b < 4 then some (.ofCode (b.extractLsb' 0 2)) else none

/-- A byte up to a bound. -/
def byteUpTo (bound : Nat) (b : Byte) : Option Byte := if b.toNat ≤ bound then some b else none

/-- The rewrite group: absent, or 1 to 255. -/
def rewriteOf (present : Bool) (b : Byte) : Option (Option Byte) :=
  if present then (if b = 0 then none else some (some b)) else some none

def decodeRoute (r : List Byte) : Option Route :=
  let f := byteAt r 0
  match Ingress.ofCode (f.extractLsb' 1 2), patternField (f.getLsbD 4) (kindOfByte (byteAt r 1)),
      patternField (f.getLsbD 5) (dtypeOfByte (byteAt r 2)),
      patternField (f.getLsbD 6) ((byteUpTo 63 (byteAt r 3)).map fun z => (z, byteAt r 4)),
      patternField (f.getLsbD 7) (byteUpTo 60 (byteAt r 5)), Action.ofCode (byteAt r 6),
      rewriteOf (f.getLsbD 3) (byteAt r 7) with
  | some ingress, some kind, some dtype, some value, some origin, some action, some rewrite =>
    some { valid := f.getLsbD 0, ingress := ingress, kind := kind, dtype := dtype, value := value,
           originZone := origin, action := action, rewrite := rewrite }
  | _, _, _, _, _, _, _ => none

def encodeRoute (r : Route) : List Byte :=
  [ flagBit r.valid 0 ||| (r.ingress.code <<< 1) ||| flagBit r.rewrite.isSome 3 ||| flagBit r.kind.isNone 4
      ||| flagBit r.dtype.isNone 5 ||| flagBit r.value.isNone 6 ||| flagBit r.originZone.isNone 7,
    byteOf (r.kind.elim 0 Fin.val), byteOf (r.dtype.elim 0 DestType.code), r.value.elim 0 Prod.fst,
    r.value.elim 0 Prod.snd, r.originZone.getD 0, r.action.code, r.rewrite.getD 0 ]

/-! ### LOAD (R14, R78) -/

def LoadType.ofCode (c : BitVec 2) : Option LoadType :=
  if c = 0 then some .switched else if c = 1 then some .dimmed else if c = 2 then some .motor else none

def LoadType.code : LoadType → Byte
  | .switched => 0
  | .dimmed => 1
  | .motor => 2

/-- Output 0 to 7. -/
def outputOfByte (b : Byte) : Option (Fin 8) := if h : b.toNat < 8 then some ⟨b.toNat, h⟩ else none

/-- The record as sent, before the clamping of R79. -/
def decodeLoad (r : List Byte) : Option LoadCfg :=
  let f := byteAt r 0
  match LoadType.ofCode (f.extractLsb' 1 2), outputOfByte (byteAt r 2) with
  | some type, some output =>
    some { valid := f.getLsbD 0, device := byteAt r 1, output := output, type := type,
           branch := (f.extractLsb' 3 2).toFin, priority := (f.extractLsb' 5 3).toFin,
           full := (halfAt r 3).toNat, inrush := (halfAt r 5).toNat, inrushTime := (byteAt r 7).toNat,
           minLevel := (halfAt r 8).toNat }
  | _, _ => none

def encodeLoad (l : LoadCfg) : List Byte :=
  [ flagBit l.valid 0 ||| (l.type.code <<< 1) ||| (byteOf l.branch.val <<< 3) ||| (byteOf l.priority.val <<< 5),
    l.device, byteOf l.output.val ] ++ bytes2 l.full ++ bytes2 l.inrush ++ [byteOf l.inrushTime] ++
    bytes2 l.minLevel

/-! ### LIMIT (R14, R86) -/

def decodeLimits (r : List Byte) : Limits :=
  { branch := #v[(halfAt r 0).toNat, (halfAt r 2).toNat, (halfAt r 4).toNat, (halfAt r 6).toNat],
    total := (halfAt r 8).toNat }

def encodeLimits (l : Limits) : List Byte :=
  bytes2 l.branch[0] ++ bytes2 l.branch[1] ++ bytes2 l.branch[2] ++ bytes2 l.branch[3] ++ bytes2 l.total

/-! ### POINT (R14, R67) -/

def decodePoint (r : List Byte) : Option PointCfg :=
  if h : (byteAt r 3).toNat < 10 then
    some { valid := (byteAt r 0).getLsbD 0, source := ⟨byteAt r 1, byteAt r 2⟩,
           position := ⟨(byteAt r 3).toNat, h⟩ }
  else none

def encodePoint (p : PointCfg) : List Byte :=
  [flagBit p.valid 0, p.source.zone, p.source.device, byteOf p.position.val]

/-! ### CONDITION (R14, R151) -/

def CondTest.ofCode (c : BitVec 3) : Option CondTest :=
  if c = 0 then some .eq else if c = 1 then some .ne else if c = 2 then some .lt
  else if c = 3 then some .ge else if c = 4 then some .bitsSet else if c = 5 then some .bitsClear
  else none

def CondTest.code : CondTest → Byte
  | .eq => 0
  | .ne => 1
  | .lt => 2
  | .ge => 3
  | .bitsSet => 4
  | .bitsClear => 5

/-- The record as sent, before the clamping of R151. -/
def decodeCondition (r : List Byte) : Option Condition :=
  match CondTest.ofCode ((byteAt r 0).extractLsb' 1 3) with
  | some test =>
    if h : (byteAt r 1).toNat < 64 then
      some { valid := (byteAt r 0).getLsbD 0, point := ⟨(byteAt r 1).toNat, h⟩, test := test,
             operand := halfAt r 2, limit := (halfAt r 4).toNat }
    else none
  | none => none

def encodeCondition (c : Condition) : List Byte :=
  [flagBit c.valid 0 ||| (c.test.code <<< 1), byteOf c.point.val] ++ halfBytes c.operand ++ bytes2 c.limit

/-! ### CHANNEL (R14, R123) -/

/-- Part 0: valid, exclusion set, controller device, motor load. -/
structure ChanPart0 where
  valid : Bool
  exclusion : BitVec 4
  controller : Byte
  motorLoad : Fin 96
  deriving DecidableEq, Repr

def decodePart0 (r : List Byte) : Option ChanPart0 :=
  if h : (byteAt r 2).toNat < 96 then
    some { valid := (byteAt r 0).getLsbD 0, exclusion := (byteAt r 0).extractLsb' 1 4,
           controller := byteAt r 1, motorLoad := ⟨(byteAt r 2).toNat, h⟩ }
  else none

def encodePart0 (c : ChanCfg) : List Byte :=
  [flagBit c.valid 0 ||| (c.exclusion.zeroExtend 8 <<< 1), c.controller, byteOf c.motorLoad.val]

/-- Part 1: the consoles up to the count, 0 to 4. -/
def decodePart1 (r : List Byte) : Option (List Origin) :=
  let count := (byteAt r 0).toNat
  if count ≤ 4 then
    some ((List.range count).map fun i => ⟨byteAt r (1 + 2 * i), byteAt r (2 + 2 * i)⟩)
  else none

def encodePart1 (c : ChanCfg) : List Byte :=
  byteOf c.consoles.length ::
    (List.range 4).flatMap fun i =>
      match c.consoles[i]? with
      | some o => [o.zone, o.device]
      | none => [0, 0]

/-- Part 2: the six timings as sent, before the clamping of R125. -/
def decodePart2 (r : List Byte) : Timings :=
  { armWindow := (halfAt r 0).toNat, runGap := (halfAt r 2).toNat, startTimeout := (halfAt r 4).toNat,
    stopTimeout := (halfAt r 6).toNat, travelLimit := (halfAt r 8).toNat, jogTime := (halfAt r 10).toNat }

def encodePart2 (c : ChanCfg) : List Byte :=
  bytes2 c.timings.armWindow ++ bytes2 c.timings.runGap ++ bytes2 c.timings.startTimeout ++
    bytes2 c.timings.stopTimeout ++ bytes2 c.timings.travelLimit ++ bytes2 c.timings.jogTime

/-- A condition number, 0 to 47. -/
def conditionOfByte (b : Byte) : Option (Fin 48) := if h : b.toNat < 48 then some ⟨b.toNat, h⟩ else none

/-- All of a list's values, or `none` if one is missing. -/
def allSome {α : Type} : List (Option α) → Option (List α)
  | [] => some []
  | none :: _ => none
  | some x :: rest => (allSome rest).map (x :: ·)

/-- A direction list at byte `i` of a record: its count, 0 to 6, and its conditions up to the count. -/
def directionList (r : List Byte) (i : Nat) : Option (List (Fin 48)) :=
  let count := (byteAt r i).toNat
  if count ≤ 6 then allSome ((List.range count).map fun k => conditionOfByte (byteAt r (i + 1 + k)))
  else none

def decodePart3 (r : List Byte) : Option (List (Fin 48) × List (Fin 48)) :=
  match directionList r 0, directionList r 7 with
  | some a, some b => some (a, b)
  | _, _ => none

/-- A direction list in seven bytes, its unused places 0. -/
def encodeList (l : List (Fin 48)) : List Byte :=
  byteOf l.length :: (List.range 6).map fun i => (l[i]?).elim 0 fun k => byteOf k.val

def encodePart3 (c : ChanCfg) : List Byte := encodeList c.listA ++ encodeList c.listB

/-! ### SCENE and ACTION (R14, R107, R108) -/

def decodeScene (r : List Byte) : SceneRec :=
  { valid := (byteAt r 0).getLsbD 0, first := (halfAt r 1).toNat, count := (byteAt r 3).toNat }

def encodeScene (s : SceneRec) : List Byte := [flagBit s.valid 0] ++ bytes2 s.first ++ [byteOf s.count]

/-- Action `k` of a record of actions. -/
def decodeAction (r : List Byte) (k : Nat) : ActionRec :=
  { load := (byteAt r (1 + 5 * k)).toNat, level := (halfAt r (2 + 5 * k)).toNat,
    fade := (byteAt r (4 + 5 * k)).toNat, delay := (byteAt r (5 + 5 * k)).toNat }

def encodeAction (a : ActionRec) : List Byte :=
  [byteOf a.load] ++ bytes2 a.level ++ [byteOf a.fade, byteOf a.delay]

/-! ### MANAGERS and PARAM (R14, R160, R63) -/

def decodeManager (r : List Byte) : Manager := ⟨(byteAt r 0).getLsbD 0, ⟨byteAt r 1, byteAt r 2⟩⟩

def encodeManager (m : Manager) : List Byte := [flagBit m.valid 0, m.origin.zone, m.origin.device]

def decodeParam (r : List Byte) : Option (BitVec 4) :=
  if 1 ≤ byteAt r 0 ∧ byteAt r 0 ≤ 15 then some ((byteAt r 0).extractLsb' 0 4) else none

/-! ### Requests (R13) -/

/-- A WRITE that passed decoding. -/
inductive WriteReq where
  | route (i : Fin 64) (r : Route)
  | load (n : Fin 96) (r : LoadCfg)
  | limit (m : Fin 4) (r : Limits)
  | point (k : Fin 64) (r : PointCfg)
  | condition (k : Fin 48) (r : Condition)
  | part0 (c : Fin 4) (r : ChanPart0)
  | part1 (c : Fin 4) (r : List Origin)
  | part2 (c : Fin 4) (r : Timings)
  | part3 (c : Fin 4) (a b : List (Fin 48))
  | scene (s : Fin 128) (r : SceneRec)
  | action (first : Nat) (r : List ActionRec)
  | manager (i : Fin 2) (r : Manager)
  | param (h : BitVec 4)
  deriving DecidableEq, Repr

/-- A READ that passed decoding. -/
inductive ReadReq where
  | route (i : Fin 64)
  | load (n : Fin 96)
  | limit (m : Fin 4)
  | point (k : Fin 64)
  | condition (k : Fin 48)
  | channel (part : Fin 4) (c : Fin 4)
  | scene (s : Fin 128)
  | action (first count : Nat)
  | manager (i : Fin 2)
  | param
  deriving DecidableEq, Repr

/-- The item and number of a READ_STATUS that passed decoding (R15). -/
inductive StatusItem where
  | channel (c : Fin 4)
  | branch (b : Fin 4)
  | load (n : Fin 96)
  | pool
  | port (p : Port)
  deriving DecidableEq, Repr

/-- A request that passed decoding. -/
inductive Request where
  | identify
  | assignZone (z : Byte)
  | write (w : WriteReq)
  | read (r : ReadReq)
  | readStatus (item : StatusItem) (clear : Bool)
  | setManual (m : SourceMode)
  | setFromPoint (k : Fin 64)
  | recall (s : Fin 128)
  | clear (c : Fin 4)
  | resetSegment
  | restart
  deriving DecidableEq, Repr

/-- What the decoding of a request gives: nothing (N below 2), the status of a failed test, or a request. -/
inductive Decoded where
  | discard
  | bad (st : Status)
  | good (r : Request)
  deriving DecidableEq, Repr

/-- Steps 4 to 6 of R13 for an entry: N, then the index, then the coded fields. -/
def entryCase (p : List Byte) (n bound index : Nat) (k : Fin bound → Option Request) : Decoded :=
  if p.length ≠ n then .bad .badRequest
  else if h : index < bound then
    match k ⟨index, h⟩ with
    | some r => .good r
    | none => .bad .badValue
  else .bad .badIndex

/-- The index of a WRITE or READ: payload bytes 3 and 4 (R14). -/
def indexOf (p : List Byte) : Nat := (halfAt p 3).toNat

/-- The record of a WRITE: from payload byte 5 (R13). -/
def recordOf (p : List Byte) : List Byte := p.drop 5

/-- A WRITE of CHANNEL: the part is the high byte of the index, the channel the low byte; a part above 3
names no record length (R13 step 4). -/
def decodeWriteChannel (p : List Byte) : Decoded :=
  let part := byteAt p 3
  let channel := (byteAt p 4).toNat
  let r := recordOf p
  if part = 0 then entryCase p 8 4 channel fun c => (decodePart0 r).map fun x => .write (.part0 c x)
  else if part = 1 then entryCase p 14 4 channel fun c => (decodePart1 r).map fun x => .write (.part1 c x)
  else if part = 2 then entryCase p 17 4 channel fun c => some (.write (.part2 c (decodePart2 r)))
  else if part = 3 then
    entryCase p 19 4 channel fun c => (decodePart3 r).map fun x => .write (.part3 c x.1 x.2)
  else .bad .badIndex

/-- A count of actions is 1 to 3 (R13 step 4). -/
def countOk (count : Nat) : Bool := 1 ≤ count && count ≤ 3

/-- A WRITE of ACTION. -/
def decodeWriteAction (p : List Byte) : Decoded :=
  let count := (byteAt p 5).toNat
  if countOk count = false ∨ p.length ≠ 6 + 5 * count then .bad .badRequest
  else if indexOf p + count ≤ 1024 then
    .good (.write (.action (indexOf p) ((List.range count).map (decodeAction (recordOf p)))))
  else .bad .badIndex

/-- Steps 3 to 6 of R13 for a WRITE. One of N 2, without a table code, and one of CHANNEL of N 3, without a part, get
BAD_REQUEST: the absent byte reads as 0 (DESIGN CHOICE, unsafe, log 14). -/
def decodeWrite (p : List Byte) : Decoded :=
  let t := byteAt p 2
  let r := recordOf p
  if t = 0 then entryCase p 13 64 (indexOf p) fun i => (decodeRoute r).map fun x => .write (.route i x)
  else if t = 1 then entryCase p 15 96 (indexOf p) fun i => (decodeLoad r).map fun x => .write (.load i x)
  else if t = 2 then entryCase p 15 4 (indexOf p) fun i => some (.write (.limit i (decodeLimits r)))
  else if t = 3 then entryCase p 9 64 (indexOf p) fun i => (decodePoint r).map fun x => .write (.point i x)
  else if t = 4 then
    entryCase p 11 48 (indexOf p) fun i => (decodeCondition r).map fun x => .write (.condition i x)
  else if t = 5 then decodeWriteChannel p
  else if t = 6 then entryCase p 9 128 (indexOf p) fun i => some (.write (.scene i (decodeScene r)))
  else if t = 7 then decodeWriteAction p
  else if t = 8 then entryCase p 8 2 (indexOf p) fun i => some (.write (.manager i (decodeManager r)))
  else if t = 9 then entryCase p 6 1 (indexOf p) fun _ => (decodeParam r).map fun x => .write (.param x)
  else .bad .badTable

/-- A READ of CHANNEL: part and channel in the index. -/
def decodeReadChannel (p : List Byte) : Decoded :=
  if p.length ≠ 5 then .bad .badRequest
  else if h : (byteAt p 3).toNat < 4 ∧ (byteAt p 4).toNat < 4 then
    .good (.read (.channel ⟨(byteAt p 3).toNat, h.1⟩ ⟨(byteAt p 4).toNat, h.2⟩))
  else .bad .badIndex

/-- A READ of ACTION, with its count. -/
def decodeReadAction (p : List Byte) : Decoded :=
  let count := (byteAt p 5).toNat
  if countOk count = false ∨ p.length ≠ 6 then .bad .badRequest
  else if indexOf p + count ≤ 1024 then .good (.read (.action (indexOf p) count))
  else .bad .badIndex

/-- Steps 3 to 6 of R13 for a READ. One of N 2, without a table code, gets BAD_REQUEST: the absent byte reads as 0
(DESIGN CHOICE, unsafe, log 14). -/
def decodeRead (p : List Byte) : Decoded :=
  let t := byteAt p 2
  if t = 0 then entryCase p 5 64 (indexOf p) fun i => some (.read (.route i))
  else if t = 1 then entryCase p 5 96 (indexOf p) fun i => some (.read (.load i))
  else if t = 2 then entryCase p 5 4 (indexOf p) fun i => some (.read (.limit i))
  else if t = 3 then entryCase p 5 64 (indexOf p) fun i => some (.read (.point i))
  else if t = 4 then entryCase p 5 48 (indexOf p) fun i => some (.read (.condition i))
  else if t = 5 then decodeReadChannel p
  else if t = 6 then entryCase p 5 128 (indexOf p) fun i => some (.read (.scene i))
  else if t = 7 then decodeReadAction p
  else if t = 8 then entryCase p 5 2 (indexOf p) fun i => some (.read (.manager i))
  else if t = 9 then entryCase p 5 1 (indexOf p) fun _ => some (.read .param)
  else .bad .badTable

/-- The clear flag of a READ_STATUS is coded 0 or 1 (R13 step 6). -/
def flagCase (flag : Byte) (item : StatusItem) : Option Request :=
  if flag = 0 then some (.readStatus item false)
  else if flag = 1 then some (.readStatus item true) else none

/-- Ports of item PORT: 0 A, 1 B, 2 ZONE (R15). -/
def portOfIndex (i : Fin 3) : Port := if i = 0 then .a else if i = 1 then .b else .zone

/-- A READ_STATUS: payload bytes 2 to 4 are item, number and clear flag (R13, R15). -/
def decodeStatus (p : List Byte) : Decoded :=
  let item := byteAt p 2
  let number := (byteAt p 3).toNat
  let flag := byteAt p 4
  if item = 0 then entryCase p 5 4 number fun c => flagCase flag (.channel c)
  else if item = 1 then entryCase p 5 4 number fun b => flagCase flag (.branch b)
  else if item = 2 then entryCase p 5 96 number fun n => flagCase flag (.load n)
  else if item = 3 then entryCase p 5 1 number fun _ => flagCase flag .pool
  else if item = 4 then entryCase p 5 3 number fun i => flagCase flag (.port (portOfIndex i))
  else if p.length ≠ 5 then .bad .badRequest else .bad .badValue

/-- A SET_MODE: selector 0 to 3 a manual mode, 4 a point (R13). -/
def decodeSetMode (p : List Byte) : Decoded :=
  let selector := byteAt p 2
  let point := (byteAt p 3).toNat
  if p.length ≠ 4 then .bad .badRequest
  else if h : selector.toNat < 4 then .good (.setManual (.ofIndex ⟨selector.toNat, h⟩))
  else if selector = 4 then
    if h : point < 64 then .good (.setFromPoint ⟨point, h⟩) else .bad .badIndex
  else .bad .badValue

/-- An ASSIGN_ZONE: a zone 1 to 60 (R13). -/
def decodeAssign (p : List Byte) : Decoded :=
  if p.length ≠ 3 then .bad .badRequest
  else if 1 ≤ byteAt p 2 ∧ byteAt p 2 ≤ 60 then .good (.assignZone (byteAt p 2))
  else .bad .badValue

/-- A request without arguments. -/
def bareCase (p : List Byte) (r : Request) : Decoded := if p.length = 2 then .good r else .bad .badRequest

/-- The decoding of a request's payload in the order of R13. -/
def decodeRequest (p : List Byte) : Decoded :=
  let code := byteAt p 0
  if p.length < 2 then .discard
  else if code = 1 then bareCase p .identify
  else if code = 2 then decodeAssign p
  else if code = 3 then decodeWrite p
  else if code = 4 then decodeRead p
  else if code = 5 then decodeStatus p
  else if code = 6 then decodeSetMode p
  else if code = 7 then entryCase p 3 128 (byteAt p 2).toNat fun s => some (.recall s)
  else if code = 8 then entryCase p 3 4 (byteAt p 2).toNat fun c => some (.clear c)
  else if code = 9 then bareCase p .resetSegment
  else if code = 10 then bareCase p .restart
  else .bad .badRequest

end Sys2Proof.Machine
end

