-- ==== Sys2Proof/Machine/Flags.lean ====
section
/-! DEFINITION. Machine/Flags.lean: what the part computes from its state and does not store: commitments,
effective limits and the tests of R81, the ages of points and the truth of conditions, conditions in use,
active states, exclusion, and the clearing of the OVERCOMMIT flags. -/

namespace Sys2Proof.Machine

/-! ### Load budget (R80, R81, R86, R89) -/

/-- The load draws current: INRUSH or ON (R82). -/
def Load.drawing (l : Load) : Bool := l.state == .inrush || l.state == .on

/-- ceil(F × level / 1000) (R80). -/
def dimDemand (full level : Nat) : Nat := (full * level + 999) / 1000

/-- Branch commitment C_b: the sum of D over the valid loads of the branch (R80). -/
def Budget.commit (u : Budget) (b : Fin 4) : Nat :=
  (u.loads.toList.map fun l => if l.cfg.valid && l.cfg.branch == b then l.demand else 0).sum

/-- Zone total T (R80). -/
def Budget.total (u : Budget) : Nat := u.commit 0 + u.commit 1 + u.commit 2 + u.commit 3

/-- Effective limit of a branch: 0 while its trip input is asserted (R86). -/
def Budget.effBranch (u : Budget) (b : Fin 4) : Nat :=
  if u.trip[b.val] then 0 else (u.limits[u.mode.index.val]).branch[b.val]

/-- Effective zone total limit (R86). -/
def Budget.effTotal (u : Budget) : Nat := (u.limits[u.mode.index.val]).total

/-- A change of load `n`'s demand to `d` fits (R81). A request that leaves D as it is is tested like one that raises
it (DEDUCED, unsafe, log 12). -/
def Budget.fits (u : Budget) (n : Fin 96) (d : Nat) : Bool :=
  let l := u.loads[n.val]
  u.commit l.cfg.branch - l.demand + d ≤ u.effBranch l.cfg.branch && u.total - l.demand + d ≤ u.effTotal

/-- The room for load `n`, 0 when negative (R81). -/
def Budget.room (u : Budget) (n : Fin 96) : Nat :=
  let l := u.loads[n.val]
  min (u.effBranch l.cfg.branch - (u.commit l.cfg.branch - l.demand)) (u.effTotal - (u.total - l.demand))

/-- Some sum exceeds its effective limit (R87 step 2). -/
def Budget.exceeds (u : Budget) : Bool :=
  u.effBranch 0 < u.commit 0 || u.effBranch 1 < u.commit 1 || u.effBranch 2 < u.commit 2 ||
    u.effBranch 3 < u.commit 3 || u.effTotal < u.total

/-- Clear each set OVERCOMMIT flag whose sum is within its limit (R89). -/
def Budget.clearOver (u : Budget) : Budget :=
  { u with
    overBranch := mapIdx u.overBranch fun b f => f && u.effBranch b < u.commit b
    overTotal := u.overTotal && u.effTotal < u.total }

/-- Demand of a SWITCHED or MOTOR load at its switching on: I, or F when the inrush time is 0 (R97, R100). -/
def LoadCfg.startDemand (c : LoadCfg) : Nat := if c.inrushTime = 0 then c.full else c.inrush

/-- Demand asked for a shed load by the restore walk (R85). -/
def Load.restoreDemand (l : Load) : Nat :=
  if l.cfg.type = .dimmed then dimDemand l.cfg.full l.requested else l.cfg.startDemand

/-- Priorities above `p`, highest first (R88, R98). -/
def prioritiesAbove (p : Nat) : List Nat := [7, 6, 5, 4, 3, 2, 1].filter (p < ·)

/-- Candidates of a walk: loads drawing current, of priority above `p` and not bound, by priority descending,
and among equal priorities newest first on the Admission List (R88, R98). -/
def Budget.candidates (u : Budget) (p : Nat) : List (Fin 96) :=
  (prioritiesAbove p).flatMap fun q => u.admission.reverse.filter fun n =>
    let l := u.loads[n.val]
    l.cfg.priority.val == q && l.bound.isNone && l.drawing

/-! ### Points and conditions (R73, R152, R153) -/

/-- Age of a point in ms at a moment (R73). -/
def PointState.age (now : Nat) : PointState → Nat
  | .unknown => Config.ageMax
  | .valid _ updated => min Config.ageMax (now - updated)

/-- The test of a condition on a value (R152). -/
def CondTest.holds (t : CondTest) (v n : Half) : Bool :=
  match t with
  | .eq => v == n
  | .ne => v != n
  | .lt => v.slt n
  | .ge => n.sle v
  | .bitsSet => v &&& n == n
  | .bitsClear => v &&& n == 0

/-- The point's age is within a freshness limit, 0 standing for none (R152). -/
def fresh (limit now : Nat) (p : PointState) : Bool := limit == 0 || p.age now ≤ limit

/-- The condition list of a direction (R123). -/
def Channel.list (c : Channel) : Direction → List (Fin 48)
  | .a => c.cfg.listA
  | .b => c.cfg.listB

/-- ARMED, STARTING, RUNNING, JOGGING or STOPPING (R126). -/
def ChanState.active : ChanState → Bool
  | .armed | .starting | .running | .jogging | .stopping => true
  | .off | .idle | .fault => false

/-- ARMED, STARTING, RUNNING or JOGGING: the states in which the channel's conditions are watched (R153). -/
def ChanState.watched : ChanState → Bool
  | .armed | .starting | .running | .jogging => true
  | .off | .idle | .stopping | .fault => false

/-- STARTING, RUNNING, JOGGING or STOPPING: the states in which the motor load is held (R131). -/
def ChanState.driving : ChanState → Bool
  | .starting | .running | .jogging | .stopping => true
  | .off | .idle | .armed | .fault => false

/-- The channel uses the condition: watched, and on the list of its present direction (R153). -/
def Channel.uses (c : Channel) (k : Fin 48) : Bool := c.state.watched && (c.list c.direction).contains k

/-- The condition is in use (R153). -/
def inUse (s : State) (k : Fin 48) : Bool := s.ds.channels.toList.any fun c => c.uses k

/-- A condition holds, its freshness apart: it is valid, its point VALID, and its test passes (R152). -/
def condHolds (s : State) (k : Fin 48) : Bool :=
  let c := s.ie.conditions[k.val]
  match (s.pm.points[c.point.val]).state with
  | .unknown => false
  | .valid v _ => c.valid && c.test.holds v c.operand

/-- The point of a condition is within the condition's freshness limit (R152). -/
def condFresh (s : State) (k : Fin 48) : Bool :=
  let c := s.ie.conditions[k.val]
  fresh c.limit s.now (s.pm.points[c.point.val]).state

/-- The truth of a condition (R152). A condition in use is kept true until its freshness expiry is taken, or an
update that makes it false (R152, R155, R156; DEDUCED, unsafe, log 15). -/
def condTrue (s : State) (k : Fin 48) : Bool := condHolds s k && (inUse s k || condFresh s k)

/-- The first condition of a list that is not true (R152). -/
def firstFalse (s : State) (l : List (Fin 48)) : Option (Fin 48) := l.find? fun k => !condTrue s k

/-- The point is named by a condition in use (R68, R153). -/
def pointInUse (s : State) (p : Fin 64) : Bool :=
  (List.finRange 48).any fun k => (s.ie.conditions[k.val]).point == p && inUse s k

/-- The freshness expiry of a condition: scheduled while it is in use with a limit other than 0, at its
point's last update plus the limit plus 1 ms (R153, R154; log 15). -/
def freshnessDue (s : State) (k : Fin 48) : Option Nat :=
  let c := s.ie.conditions[k.val]
  match (s.pm.points[c.point.val]).state with
  | .unknown => none
  | .valid _ updated => if inUse s k && c.limit != 0 then some (updated + c.limit + 1) else none

/-! ### Channels (R133, R145, R157) -/

/-- Two channels are excluded from each other: either names the other (R157). -/
def Drive.excludes (d : Drive) (c x : Fin 4) : Bool :=
  (d.channels[c.val]).cfg.exclusion.getLsbD x.val || (d.channels[x.val]).cfg.exclusion.getLsbD c.val

/-- The lowest-numbered channel excluded from `c` that is active (R133, R157). -/
def Drive.excluder (d : Drive) (c : Fin 4) : Option (Fin 4) :=
  (List.finRange 4).find? fun x => x != c && d.excludes c x && (d.channels[x.val]).state.active

/-- STARTING phase SENT after the START has completed (R145). -/
def Channel.startingHigh (c : Channel) : Bool := c.state == .starting && c.phase == .sent && c.enable

/-- The frame's origin is on the channel's console list (R132). -/
def Channel.listed (c : Channel) (o : Origin) : Bool := c.cfg.consoles.contains o

/-! ### Assignment (R3, R52, R64) -/

/-- The Z24 is assigned to a zone. -/
def State.assigned (s : State) : Bool := s.mr.ownZone != 0

/-- A frame from a trunk port is discarded as spent or looped; while unassigned only as spent (R52, R64). -/
def discarded (s : State) (src : Source) : Bool :=
  src.port != .zone && (src.hop == 0 || (s.assigned && src.origin.zone == s.mr.ownZone))

end Sys2Proof.Machine
end

