-- ==== Sys2Proof/Machine/Ops.lean ====
section
/-! DEFINITION. Machine/Ops.lean: the named operations that several blocks share: the clock, the Frame Pool,
the ports' counters, the egress queues with the beginning of transmissions, the command slots, and the
marks of an event in progress. -/

namespace Sys2Proof.Machine

/-! ### Clock (log 2) -/

/-- The deadline of a timer started now. -/
def State.after (s : State) (ms : Nat) : Nat := s.now + ms

/-- The clock at the moment a deadline is reached. -/
def State.reach (s : State) (deadline : Nat) : State := { s with now := max s.now deadline }

/-! ### Counters (R33) -/

/-- An increment, held at 65535. -/
def bump (n : Nat) : Nat := if n < Config.counterMax then n + 1 else n

def Counters.addGood (c : Counters) : Counters := { c with good := bump c.good }
def Counters.addBad (c : Counters) : Counters := { c with badCheck := bump c.badCheck }
def Counters.addLong (c : Counters) : Counters := { c with longOrAborted := bump c.longOrAborted }
def Counters.addNoBuffer (c : Counters) : Counters := { c with noBuffer := bump c.noBuffer }
def Counters.addSent (c : Counters) : Counters := { c with transmitted := bump c.transmitted }
def Counters.addFailed (c : Counters) : Counters := { c with txFailed := bump c.txFailed }

/-! ### Trunk ports by name -/

def State.trunk (s : State) : Trunk → TrunkPort
  | .a => s.tpa
  | .b => s.tpb

def State.modTrunk (s : State) (t : Trunk) (f : TrunkPort → TrunkPort) : State :=
  match t with
  | .a => { s with tpa := f s.tpa }
  | .b => { s with tpb := f s.tpb }

def State.modZone (s : State) (f : ZonePort → ZonePort) : State := { s with zp := f s.zp }

/-! ### Frame Pool (R36 to R39) -/

def State.buf (s : State) (b : Fin 48) : Buffer := s.pool.bufs[b.val]

def State.modBuf (s : State) (b : Fin 48) (f : Buffer → Buffer) : State :=
  { s with pool := { s.pool with bufs := upd s.pool.bufs b f } }

/-- The free count (R37). -/
def Pool.freeCount (p : Pool) : Nat := p.bufs.toList.countP Buffer.free

/-- A free buffer; which one has no effect on the part (R36), so the lowest (log 8). -/
def Pool.firstFree (p : Pool) : Option (Fin 48) := (List.finRange 48).find? fun b => (p.bufs[b.val]).free

/-- A request for a buffer, granted while at least `least` are free (R38). -/
def State.takeBuffer (s : State) (least : Nat) : Option (Fin 48 × State) :=
  if least ≤ s.pool.freeCount then
    s.pool.firstFree.map fun b => (b, s.modBuf b fun x => { x with free := false, refs := 0 })
  else none

/-- A buffer taken and given back within one event: no rise is reported (R37, R39). -/
def State.giveBack (s : State) (b : Fin 48) : State := s.modBuf b fun x => { x with free := true, refs := 0 }

/-- One rise of the free count, reported to LBU and to MR (R37). -/
def State.rise (s : State) : State :=
  { s with pool := { s.pool with riseLbu := s.pool.riseLbu + 1, riseMr := s.pool.riseMr + 1 } }

/-- A holder lets a buffer go; at 0 the buffer joins the free list and the rise is reported (R37). -/
def State.dropRef (s : State) (b : Fin 48) : State :=
  if (s.buf b).refs ≤ 1 then (s.modBuf b fun x => { x with free := true, refs := 0 }).rise
  else s.modBuf b fun x => { x with refs := x.refs - 1 }

/-- A further holder of a buffer. -/
def State.addRef (s : State) (b : Fin 48) : State := s.modBuf b fun x => { x with refs := x.refs + 1 }

/-- Write the frame of an originated buffer: check GOOD, arrival INTERNAL (R6). -/
def State.writeOwn (s : State) (b : Fin 48) (bytes : List Byte) : State :=
  s.modBuf b fun x => { x with bytes := bytes, status := ⟨true, false, false, .internal⟩ }

/-- A port's request for a reception buffer: one holder and the arrival field, or a frame dropped whole
(R20, R25, R38). The other three fields of the status record are written at frame end only; until then they read
BAD, no, no (R6; DESIGN CHOICE, unsafe, log 26). -/
def State.takeReception (s : State) (p : Port) : Reception × State :=
  match s.takeBuffer Config.receptionMin with
  | some (b, s1) =>
    (⟨some b⟩, s1.modBuf b fun x => { x with refs := 1, status := ⟨false, false, false, .port p⟩ })
  | none => (⟨none⟩, s)

/-- The status record and the stored bytes at frame end: at most 31 bytes (R6, R17, R24). -/
def State.storeFrame (s : State) (b : Fin 48) (bytes : List Byte) (good tooLong aborted : Bool) : State :=
  s.modBuf b fun x =>
    { x with bytes := bytes.take Config.storedBytes
             status := { x.status with good := good, tooLong := tooLong, aborted := aborted } }

/-! ### Egress queues (R42, R43, R46) -/

/-- Class of a place; a slot place is of class 0 (R42). -/
def Place.cls (p : Place) : Fin 4 :=
  match p.kind with
  | .buffer _ cls _ _ => cls
  | .slot _ => 0

/-- The place refers to the buffer. -/
def Place.holds (p : Place) (b : Fin 48) : Bool :=
  match p.kind with
  | .buffer x _ _ _ => x == b
  | .slot _ => false

/-- The place is the channel's slot place. -/
def Place.isSlot (p : Place) (c : Fin 4) : Bool :=
  match p.kind with
  | .buffer .. => false
  | .slot x => x == c

/-- The place is a buffer place. -/
def Place.isBuffer (p : Place) : Bool :=
  match p.kind with
  | .buffer .. => true
  | .slot _ => false

/-- A place enters after every place of the same or a lower class number (R43). -/
def insertPlace (p : Place) : List Place → List Place
  | [] => [p]
  | q :: rest => if p.cls < q.cls then p :: q :: rest else q :: insertPlace p rest

/-- An accepted place takes the queue's next entry number (R42, R43). -/
def Queue.accept (q : Queue) (k : PlaceKind) : Queue :=
  { places := insertPlace ⟨k, q.nextEntry⟩ q.places, nextEntry := q.nextEntry + 1 }

/-- The removal of one buffer's place leaves the others in their order (R46). -/
def Queue.dropBuffer (q : Queue) (b : Fin 48) : Queue :=
  { q with places := q.places.filter fun p => !p.holds b }

/-- The removal of a slot place. -/
def Queue.dropSlot (q : Queue) (c : Fin 4) : Queue :=
  { q with places := q.places.filter fun p => !p.isSlot c }

/-- Buffer places held (R44). -/
def Queue.bufferPlaces (q : Queue) : Nat := q.places.countP Place.isBuffer

/-- The buffers of a queue's places, for its emptying. -/
def Queue.buffers (q : Queue) : List (Fin 48) :=
  q.places.filterMap fun p =>
    match p.kind with
    | .buffer b _ _ _ => some b
    | .slot _ => none

/-- Every place removed (R47); the entry numbers go on. -/
def Queue.clear (q : Queue) : Queue := { q with places := [] }

/-- Each buffer place of an emptied queue releases its reference (R47). -/
def State.dropRefs (s : State) (l : List (Fin 48)) : State := l.foldl State.dropRef s

/-! ### Trunk transmission (R22, R44) -/

/-- A trunk transmitter begins the place at the head of its queue (R22). -/
def State.trunkBegin (s : State) (t : Trunk) : State :=
  match (s.trunk t).queue.places with
  | ⟨.buffer b _ hop _, _⟩ :: _ =>
    s.modTrunk t fun p =>
      { p with tx := some ⟨.buffer b, lineBytes (s.buf b).bytes hop none⟩, beat := none }
  | _ => s

/-- An offer of a buffer place to queue A or B: accepted while the link is UP (R44); an idle transmitter
begins at once (R22). -/
def State.offerTrunk (s : State) (t : Trunk) (b : Fin 48) (cls : Fin 4) (hop : BitVec 4) : Option State :=
  if (s.trunk t).link = .up then
    let s1 := (s.addRef b).modTrunk t fun p => { p with queue := p.queue.accept (.buffer b cls hop none) }
    some (if (s1.trunk t).tx.isNone then s1.trunkBegin t else s1)
  else none

/-! ### Channels and command slots (R45, R141) -/

def State.chan (s : State) (c : Fin 4) : Channel := s.ds.channels[c.val]

def State.modChan (s : State) (c : Fin 4) (f : Channel → Channel) : State :=
  { s with ds := { s.ds with channels := upd s.ds.channels c f } }

/-- The Zone Port's taking of a slot, as DS learns of it: a START moves QUEUED to SENT (R141). -/
def Channel.taken (c : Channel) (code : DriveCode) : Channel :=
  if code.isStart ∧ c.state = .starting ∧ c.phase = .queued then { c with command := none, phase := .sent }
  else { c with command := none }

/-! ### Zone transmission (R26, R44) -/

/-- The line is the Zone Port's to take: NORMAL, idle, no reception, nothing being sent (R26). -/
def ZonePort.canSend (z : ZonePort) : Bool :=
  z.segment == .normal && z.lineIdle && z.rx.isNone && !z.sending

/-- An attempt begins: the port drives the line, which is idle no longer (R26). -/
def State.beginAttempt (s : State) : State := s.modZone fun z => { z with sending := true, lineIdle := false }

/-- The shifter is loaded from the place at the head of the zone queue, attempt count 0 (R26). A slot place
is removed and its slot emptied; a buffer place stays. -/
def State.loadShifter (s : State) : State :=
  match s.zp.queue.places with
  | [] => s
  | ⟨.buffer b _ hop rewrite, _⟩ :: _ =>
    s.modZone fun z => { z with shifter := some ⟨.buffer b, lineBytes (s.buf b).bytes hop rewrite, 0⟩ }
  | ⟨.slot c, _⟩ :: rest =>
    match (s.chan c).command with
    | none => s.modZone fun z => { z with queue := { z.queue with places := rest } }
    | some cmd =>
      (s.modZone fun z =>
        { z with shifter := some ⟨.slot c cmd.code, driveFrame cmd s.mr.ownZone s.fe.hopBudget, 0⟩
                 queue := { z.queue with places := rest } }).modChan c fun x => x.taken cmd.code

/-- On an idle line an empty shifter is loaded at once, and the attempt begins (R26). -/
def State.zoneKick (s : State) : State :=
  if s.zp.canSend && s.zp.shifter.isNone && !s.zp.queue.places.isEmpty then
    let s1 := s.loadShifter
    if s1.zp.shifter.isSome then s1.beginAttempt else s1
  else s

/-- An offer of a buffer place to the zone queue: refused while FAULTED and at 44 buffer places (R44). -/
def State.offerZone (s : State) (b : Fin 48) (cls : Fin 4) (hop : BitVec 4) (rewrite : Option Byte) :
    Option State :=
  if s.zp.segment = .normal ∧ s.zp.queue.bufferPlaces < Config.zoneBufferPlaces then
    some ((s.addRef b).modZone fun z => { z with queue := z.queue.accept (.buffer b cls hop rewrite) }).zoneKick
  else none

/-- A DRIVE command written into a channel's slot with the controller device of this moment (R8, R45): it
replaces a command in place, or takes a new place at class 0, refused only while FAULTED. -/
def State.writeSlot (s : State) (c : Fin 4) (code : DriveCode) : Option State :=
  let held := (s.chan c).command.isSome
  if held = false ∧ s.zp.segment = .faulted then none
  else
    let s1 := s.modChan c fun x => { x with command := some ⟨code, x.cfg.controller⟩ }
    if held then some s1
    else some (s1.modZone fun z => { z with queue := z.queue.accept (.slot c) }).zoneKick

/-- Withdrawal: the slot is emptied and its place removed (R45). -/
def State.withdraw (s : State) (c : Fin 4) : State :=
  (s.modZone fun z => { z with queue := z.queue.dropSlot c }).modChan c fun x => { x with command := none }

/-! ### Events in progress -/

/-- An event in progress: the state so far and what the end of the event still has to do. None of the marks
outlives the event. -/
structure Ev where
  /-- The state so far. -/
  s : State
  /-- A notice has been queued in this event (R169). -/
  noticed : Bool
  /-- LBU makes a level try at the end of the event (R102). -/
  dueSet : Bool
  /-- The event is a release event, and the restore walk is still to be made (R84). -/
  released : Bool
  /-- Channels whose shedding LBU reports complete (R101). -/
  shedDone : List (Fin 4)
  /-- A RESTART has been carried out: FE's hold ended with it (R167). -/
  restarted : Bool
  deriving DecidableEq, Repr

/-- An event begins. -/
def State.event (s : State) : Ev := ⟨s, false, false, false, [], false⟩

/-- Change the state of an event. -/
def Ev.onState (e : Ev) (f : State → State) : Ev := { e with s := f e.s }

def Ev.modChan (e : Ev) (c : Fin 4) (f : Channel → Channel) : Ev := e.onState fun s => s.modChan c f

def Ev.chan (e : Ev) (c : Fin 4) : Channel := e.s.chan c

def Ev.load (e : Ev) (n : Fin 96) : Load := e.s.lbu.loads[n.val]

def Ev.onBudget (e : Ev) (f : Budget → Budget) : Ev := e.onState fun s => { s with lbu := f s.lbu }

def Ev.modLoad (e : Ev) (n : Fin 96) (f : Load → Load) : Ev :=
  e.onBudget fun u => { u with loads := upd u.loads n f }

/-- A notice is queued: it joins the tail, or at 16 it is discarded and the newest queued notice's lost flag
is set (R168). -/
def enqueueNotice (l : List Notice) (n : Notice) : List Notice :=
  if l.length < Config.noticeMax then l ++ [n]
  else l.dropLast ++ l.getLast?.toList.map fun x => { x with lost := true }

/-- A block queues a notice with MR within its event (R168). -/
def Ev.notice (e : Ev) (cause : Cause) (subject value : Nat) : Ev :=
  { e.onState (fun s => { s with mr := { s.mr with
      notices := enqueueNotice s.mr.notices ⟨cause, subject, value, false⟩ } }) with noticed := true }

end Sys2Proof.Machine
end

