-- ==== Sys2Proof/Machine/LoadBudget.lean ====
section
/-! DEFINITION. Machine/LoadBudget.lean: the Load Budget Unit (chapter 6): shedding and restoring, the walks,
limits and source mode, level requests, motor loads, level output. Each operation acts within an event; the
restore walk, the reports to DS and the level try come at its end (Machine/Settle.lean, log 6). -/

namespace Sys2Proof.Machine

/-! ### Marks and flags -/

/-- Set a load's level-due flag; a MOTOR load's stays clear (R100, R102). -/
def Ev.setDue (e : Ev) (n : Fin 96) : Ev :=
  if (e.load n).cfg.type = .motor then e
  else { e.modLoad n (fun l => { l with due := true }) with dueSet := true }

/-- Some load waits for channel `c`'s shedding. -/
def Budget.marked (u : Budget) (c : Fin 4) : Bool := u.loads.toList.any fun l => l.waiting == some c

/-- A load's waiting-channel mark is cleared; when no load is left marked for the channel, its shedding is
reported complete (R101). -/
def Ev.clearMark (e : Ev) (n : Fin 96) : Ev :=
  match (e.load n).waiting with
  | none => e
  | some c =>
    let e1 := e.modLoad n fun l => { l with waiting := none }
    if e1.s.lbu.marked c then e1 else { e1 with shedDone := e1.shedDone ++ [c] }

/-! ### Admission List and Shed List (R82) -/

/-- A load joins the tail of the Admission List. -/
def Ev.joinAdmission (e : Ev) (n : Fin 96) : Ev := e.onBudget fun u => { u with admission := u.admission ++ [n] }

/-- A load leaves the Admission List. -/
def Ev.leaveAdmission (e : Ev) (n : Fin 96) : Ev :=
  e.onBudget fun u => { u with admission := u.admission.filter (· != n) }

/-- A load leaves the Shed List. -/
def Ev.leaveShed (e : Ev) (n : Fin 96) : Ev :=
  e.onBudget fun u => { u with shedList := u.shedList.filter (· != n) }

/-- The place of a newly shed load: by priority ascending, and last among its priority, since its shed order is
the latest (R82). -/
def insertShed (prio : Fin 96 → Nat) (n : Fin 96) : List (Fin 96) → List (Fin 96)
  | [] => [n]
  | m :: rest => if prio n < prio m then n :: m :: rest else m :: insertShed prio n rest

/-- A load enters the Shed List with the next shed order number (R82). -/
def Ev.enterShed (e : Ev) (n : Fin 96) : Ev :=
  (e.modLoad n fun l => { l with shedOrder := e.s.lbu.nextShed }).onBudget fun u =>
    { u with shedList := insertShed (fun m => (u.loads[m.val]).cfg.priority.val) n u.shedList
             nextShed := u.nextShed + 1 }

/-! ### Shedding (R83) -/

/-- What shedding makes of the load itself; a load asked for 0 ends OFF. -/
def Load.shedded (l : Load) (wait : Option (Fin 4)) : Load :=
  { l with state := if l.requested = 0 then .off else .shed
           demand := 0, granted := 0, committed := 0, lastFade := 0
           fade := .stopped, inrushTimer := .stopped
           waiting := if wait.isSome then wait else l.waiting }

/-- Shed a load; `wait` is the channel whose start waits for its level-0 frame, if any (R83, R100). -/
def Ev.shed (wait : Option (Fin 4)) (e : Ev) (n : Fin 96) : Ev :=
  let q := (e.load n).requested
  let e1 := ((e.modLoad n fun l => l.shedded wait).leaveAdmission n).setDue n
  let e2 := e1.notice .shed n.val q
  if q = 0 then e2 else e2.enterShed n

/-- Several loads shed in walk order. -/
def Ev.shedAll (e : Ev) (wait : Option (Fin 4)) (l : List (Fin 96)) : Ev := l.foldl (Ev.shed wait) e

/-! ### Restore walk (R85) -/

/-- What the restore walk makes of the load itself. -/
def Load.restored (l : Load) (now : Nat) : Load :=
  match l.cfg.type with
  | .dimmed =>
    { l with state := .on, committed := l.requested, granted := l.requested
             demand := dimDemand l.cfg.full l.requested, lastFade := 0 }
  | .switched | .motor =>
    if l.cfg.inrushTime = 0 then
      { l with state := .on, granted := 1000, committed := 1000, demand := l.cfg.full, lastFade := 0 }
    else
      { l with state := .inrush, granted := 1000, committed := 1000, demand := l.cfg.inrush
               inrushTimer := .running (now + l.cfg.inrushTime * 10), lastFade := 0 }

/-- A shed load is brought back. -/
def Ev.restore (e : Ev) (n : Fin 96) : Ev :=
  let e1 := ((((e.leaveShed n).joinAdmission n).modLoad n fun l => l.restored e.s.now).setDue n)
  (e1.notice .restored n.val (e1.load n).granted).clearMark n

/-- The walk over the Shed List: a load of a tripped branch is passed over, and the first that does not fit
ends it. A load whose D' is 0, a DIMMED one with F = 0 among them, is tested by the formula of R81 like any other, so that
it ends the walk while a sum stands above its limit; R95 has a load with F = 0 always fit (DEDUCED, unsafe, log 12). -/
def Ev.restoreWalk (e : Ev) : List (Fin 96) → Ev
  | [] => e
  | n :: rest =>
    let l := e.load n
    if e.s.lbu.trip[l.cfg.branch.val] then e.restoreWalk rest
    else if e.s.lbu.fits n l.restoreDemand then (e.restore n).restoreWalk rest
    else e

/-! ### Shed walk and limit-decrease walk (R88, R98) -/

/-- The shed walk over its candidates with the deficits of the requester's branch and of the total: the loads
taken, or none when a deficit is left (R98). -/
def Budget.shedWalk (u : Budget) (b : Fin 4) : List (Fin 96) → Int → Int → Option (List (Fin 96))
  | [], db, dt => if db ≤ 0 ∧ dt ≤ 0 then some [] else none
  | n :: rest, db, dt =>
    let l := u.loads[n.val]
    if db ≤ 0 ∧ dt ≤ 0 then some []
    else if l.cfg.branch = b then (u.shedWalk b rest (db - l.demand) (dt - l.demand)).map (n :: ·)
    else if 0 < dt then (u.shedWalk b rest db (dt - l.demand)).map (n :: ·)
    else u.shedWalk b rest db dt

/-- The loads to shed so that load `n` may draw `d`, if there are enough (R98). -/
def Budget.makeRoom (u : Budget) (n : Fin 96) (d : Nat) : Option (List (Fin 96)) :=
  let l := u.loads[n.val]
  u.shedWalk l.cfg.branch (u.candidates l.cfg.priority.val)
    ((u.commit l.cfg.branch : Int) - l.demand + d - u.effBranch l.cfg.branch)
    ((u.total : Int) - l.demand + d - u.effTotal)

/-- Deficits of the four branches. -/
abbrev Deficits := Vector Int 4

/-- The limit-decrease walk over its candidates: the loads taken (R88). -/
def Budget.limitWalk (u : Budget) : List (Fin 96) → Deficits → Int → List (Fin 96)
  | [], _, _ => []
  | n :: rest, db, dt =>
    let l := u.loads[n.val]
    if db[0] ≤ 0 ∧ db[1] ≤ 0 ∧ db[2] ≤ 0 ∧ db[3] ≤ 0 ∧ dt ≤ 0 then []
    else if 0 < db[l.cfg.branch.val] ∨ 0 < dt then
      n :: u.limitWalk rest (upd db l.cfg.branch fun x => x - l.demand) (dt - l.demand)
    else u.limitWalk rest db dt

/-- A branch's sum above its limit, as a signed deficit. -/
def Budget.deficit (u : Budget) (b : Fin 4) : Int := (u.commit b : Int) - u.effBranch b

/-- The loads a limit decrease sheds (R88). -/
def Budget.limitVictims (u : Budget) : List (Fin 96) :=
  u.limitWalk (u.candidates 0) #v[u.deficit 0, u.deficit 1, u.deficit 2, u.deficit 3]
    ((u.total : Int) - u.effTotal)

/-! ### OVERCOMMIT (R89) -/

/-- Set a branch's flag at the end of a limit-decrease walk, with its notice when it was clear. -/
def Ev.setOverBranch (e : Ev) (b : Fin 4) : Ev :=
  let u := e.s.lbu
  if u.effBranch b < u.commit b ∧ u.overBranch[b.val] = false then
    (e.onBudget fun u => { u with overBranch := upd u.overBranch b fun _ => true }).notice .overcommit b.val
      (min 65535 (u.commit b - u.effBranch b))
  else e

/-- Set the total's flag, subject 4. -/
def Ev.setOverTotal (e : Ev) : Ev :=
  let u := e.s.lbu
  if u.effTotal < u.total ∧ u.overTotal = false then
    (e.onBudget fun u => { u with overTotal := true }).notice .overcommit 4 (min 65535 (u.total - u.effTotal))
  else e

/-! ### Limits and source mode (R86, R87) -/

/-- Some effective limit of `v` is above that of `u`. -/
def Budget.rose (u v : Budget) : Bool :=
  u.effBranch 0 < v.effBranch 0 || u.effBranch 1 < v.effBranch 1 || u.effBranch 2 < v.effBranch 2 ||
    u.effBranch 3 < v.effBranch 3 || u.effTotal < v.effTotal

/-- The limit-decrease walk and the setting of the flags, when a sum exceeds its limit (R87 steps 2 and 3).
The notices of several flags set come for branches 0 to 3 and then the total (R89; DESIGN CHOICE, unsafe, log 28). -/
def Ev.limitDecrease (e : Ev) : Ev :=
  if e.s.lbu.exceeds then
    ((((e.shedAll none e.s.lbu.limitVictims).setOverBranch 0).setOverBranch 1).setOverBranch 2).setOverBranch 3
      |>.setOverTotal
  else e

/-- A change of limits or mode, handled in the order of R87. -/
def Ev.changeLimits (e : Ev) (f : Budget → Budget) : Ev :=
  let e1 := (e.onBudget f).limitDecrease
  let e2 := e1.onBudget Budget.clearOver
  if e.s.lbu.rose (f e.s.lbu) then { e2 with released := true } else e2

/-- The present mode becomes `m`; a mode that is the present one changes nothing (R87). -/
def Ev.setMode (e : Ev) (m : SourceMode) : Ev :=
  if m = e.s.lbu.mode then e else e.changeLimits fun u => { u with mode := m }

/-- SET_MODE with a manual mode (R87). -/
def Ev.selectManual (e : Ev) (m : SourceMode) : Ev :=
  (e.onBudget fun u => { u with selector := .manual }).setMode m

/-- A WRITE of LIMIT; for the present mode it is a change of effective limits (R86). -/
def Ev.writeLimits (e : Ev) (m : Fin 4) (l : Limits) : Ev :=
  let f := fun u : Budget => { u with limits := upd u.limits m fun _ => l }
  if m = e.s.lbu.mode.index then e.changeLimits f else e.onBudget f

/-! ### Dimmed loads (R93 to R96) -/

/-- The shaped target of a request for a DIMMED load (R93). -/
def shapeTarget (c : LoadCfg) (t : Nat) : Nat := if 1 ≤ t ∧ t < c.minLevel then c.minLevel else t

/-- The load goes OFF and leaves the Admission List. -/
def Ev.goOff (e : Ev) (n : Fin 96) : Ev :=
  (e.modLoad n fun l => { l with state := .off }).leaveAdmission n

/-- K falls to `t`, and D with it; at 0 the load goes OFF. A release event (R84, R94, R96). -/
def Ev.lowerK (e : Ev) (n : Fin 96) (t : Nat) : Ev :=
  let e1 := { e.modLoad n (fun l => { l with committed := t, demand := dimDemand l.cfg.full t
                                             fade := .stopped }) with released := true }
  if t = 0 then e1.goOff n else e1

/-- A falling request: always granted (R94). -/
def Ev.falling (e : Ev) (n : Fin 96) (t fade : Nat) : Ev :=
  let e1 := (e.modLoad n fun l => { l with granted := t, requested := t, lastFade := fade }).setDue n
  if fade = 0 then e1.lowerK n t
  else e1.modLoad n fun l => { l with fade := .falling (e.s.after (fade * 100)) }

/-- A granted rising request commits at once; a load that was OFF becomes ON (R95, R101). -/
def Ev.grant (e : Ev) (n : Fin 96) (g t fade : Nat) : Ev :=
  let wasOff := (e.load n).state = .off
  let e1 := (e.modLoad n fun l =>
    { l with state := .on, committed := g, granted := g, requested := t, demand := dimDemand l.cfg.full g
             lastFade := fade
             fade := if fade = 0 then .stopped else .rising (e.s.after (fade * 100)) }).setDue n
  if wasOff then (e1.joinAdmission n).clearMark n else e1

/-- The grant of a rising request that does not fit: the smaller of `t` and M (R95). -/
def Budget.clampGrant (u : Budget) (n : Fin 96) (t : Nat) : Nat :=
  min t (u.room n * 1000 / (u.loads[n.val]).cfg.full)

/-- A rising request for the shaped target `t`, asked as `asked` (R95). -/
def Ev.rising (e : Ev) (n : Fin 96) (t asked fade : Nat) : Ev :=
  let l := e.load n
  let u := e.s.lbu
  if l.state = .off ∧ u.trip[l.cfg.branch.val] = true then e.notice .refused n.val asked
  else if l.cfg.full = 0 ∨ u.fits n (dimDemand l.cfg.full t) = true then e.grant n t t fade
  else
    let g := u.clampGrant n t
    if g < l.cfg.minLevel ∨ g < l.committed then e.notice .refused n.val asked
    else (e.grant n g t fade).notice .clamped n.val g

/-- A request for a DIMMED load that is not shed (R93). -/
def Ev.dimmedRequest (e : Ev) (n : Fin 96) (asked fade : Nat) : Ev :=
  let l := e.load n
  let t := shapeTarget l.cfg asked
  if t = 0 ∧ l.state = .off then
    (e.modLoad n fun l => { l with granted := 0, lastFade := fade, requested := 0 }).setDue n
  else if t < l.committed then e.falling n t fade
  else e.rising n t asked fade

/-- The expiry of a fade timer (R96). -/
def Ev.fadeEnds (e : Ev) (n : Fin 96) : Ev :=
  match (e.load n).fade with
  | .stopped => e
  | .rising _ => e.modLoad n fun l => { l with fade := .stopped }
  | .falling _ => e.lowerK n (e.load n).granted

/-! ### Switched loads (R97 to R99) -/

/-- What switching on makes of the load: INRUSH at I with its timer as given, or ON at F (R97, R100). -/
def Load.switchedOn (l : Load) (timer : InrushTimer) : Load :=
  if l.cfg.inrushTime = 0 then
    { l with state := .on, demand := l.cfg.full, granted := 1000, committed := 1000, requested := 1000
             lastFade := 0 }
  else
    { l with state := .inrush, demand := l.cfg.inrush, granted := 1000, committed := 1000, requested := 1000
             lastFade := 0, inrushTimer := timer }

/-- An admitted SWITCHED load (R97, R101). -/
def Ev.switchOn (e : Ev) (n : Fin 96) : Ev :=
  let e1 := e.modLoad n fun l => l.switchedOn (.running (e.s.after (l.cfg.inrushTime * 10)))
  ((e1.joinAdmission n).setDue n).clearMark n

/-- A request to switch on an OFF load (R97, R98). -/
def Ev.switchOnRequest (e : Ev) (n : Fin 96) (asked : Nat) : Ev :=
  let l := e.load n
  let u := e.s.lbu
  if u.trip[l.cfg.branch.val] = true then e.notice .refused n.val asked
  else if u.fits n l.cfg.startDemand = true then e.switchOn n
  else
    match u.makeRoom n l.cfg.startDemand with
    | some victims => (e.shedAll none victims).switchOn n
    | none => e.notice .refused n.val asked

/-- A load goes OFF with everything it holds: inrush timer stopped, D, G, K, Q and last fade 0. -/
def Load.cleared (l : Load) : Load :=
  { l with state := .off, demand := 0, granted := 0, committed := 0, requested := 0, lastFade := 0
           inrushTimer := .stopped }

/-- A request of 0 for a load in ON or INRUSH: a release event (R99). -/
def Ev.switchOff (e : Ev) (n : Fin 96) : Ev :=
  { ((e.modLoad n Load.cleared).leaveAdmission n).setDue n with released := true }

/-- A request for a SWITCHED load that is not shed (R97, R99). -/
def Ev.switchedRequest (e : Ev) (n : Fin 96) (asked : Nat) : Ev :=
  let l := e.load n
  if asked = 0 then
    if l.drawing then e.switchOff n else e.setDue n
  else if l.drawing then (e.modLoad n fun l => { l with requested := 1000 }).setDue n
  else e.switchOnRequest n asked

/-- The expiry of an inrush timer: ON at F, a release event (R99). -/
def Ev.inrushEnds (e : Ev) (n : Fin 96) : Ev :=
  let e1 := e.modLoad n fun l => { l with inrushTimer := .stopped }
  if (e.load n).state = .inrush then
    { e1.modLoad n (fun l => { l with state := .on, demand := l.cfg.full }) with released := true }
  else e1

/-! ### Level requests (R92) -/

/-- A request for a shed load replaces Q; at 0 the load leaves the Shed List and becomes OFF. -/
def Ev.shedRequest (e : Ev) (n : Fin 96) (asked : Nat) : Ev :=
  let l := e.load n
  let q := if l.cfg.type = .dimmed then shapeTarget l.cfg asked else if asked = 0 then 0 else 1000
  let e1 := e.modLoad n fun l => { l with requested := q }
  if q = 0 then (e1.modLoad n fun l => { l with state := .off }).leaveShed n else e1

/-- A level request for load `n`; a target above 1000 is taken as 1000 (R92). -/
def Ev.levelRequest (e : Ev) (n : Fin 96) (target fade : Nat) : Ev :=
  let l := e.load n
  let asked := min target 1000
  if l.cfg.valid = false then e
  else if l.cfg.type = .motor then e.notice .motorLoad n.val asked
  else if l.state = .shed then e.shedRequest n asked
  else if l.cfg.type = .dimmed then e.dimmedRequest n asked fade
  else e.switchedRequest n asked

/-- A LEVEL_REQ payload, with the checks of R9: N is 4 and the load 0 to 95. -/
def Ev.levelReqFrame (e : Ev) (payload : List Byte) : Ev :=
  if h : payload.length = 4 ∧ (byteAt payload 0).toNat < 96 then
    e.levelRequest ⟨(byteAt payload 0).toNat, h.2⟩ (halfAt payload 1).toNat (byteAt payload 3).toNat
  else e

/-! ### Motor loads (R100, R101) -/

/-- Answer to the admission of a motor load. -/
inductive Admission where
  | refused
  | admitted (shed : Bool) (e : Ev)

/-- The motor load is switched on, its inrush timer waiting for the START (R100). -/
def Ev.admitMotor (e : Ev) (n : Fin 96) : Ev := (e.modLoad n fun l => l.switchedOn .waiting).joinAdmission n

/-- DS asks for the motor load of channel `c` (R100). -/
def Ev.askMotor (e : Ev) (c : Fin 4) (n : Fin 96) : Admission :=
  let l := e.load n
  let u := e.s.lbu
  if l.cfg.valid = false ∨ l.cfg.type ≠ .motor ∨ l.bound ≠ some c ∨ l.state ≠ .off then .refused
  else if u.trip[l.cfg.branch.val] = true then .refused
  else if u.fits n l.cfg.startDemand = true then .admitted false (e.admitMotor n)
  else
    match u.makeRoom n l.cfg.startDemand with
    | some victims => .admitted (!victims.isEmpty) ((e.shedAll (some c) victims).admitMotor n)
    | none => .refused

/-- Channel `c`'s START has completed: a waiting inrush timer starts (R101). -/
def Ev.startInrush (e : Ev) (n : Fin 96) : Ev :=
  if (e.load n).state = .inrush ∧ (e.load n).inrushTimer = .waiting then
    e.modLoad n fun l => { l with inrushTimer := .running (e.s.after (l.cfg.inrushTime * 10)) }
  else e

/-- Every mark naming a channel is cleared, without a report (R101). -/
def Budget.clearMarks (u : Budget) (c : Fin 4) : Budget :=
  { u with loads := mapAll u.loads fun l => if l.waiting = some c then { l with waiting := none } else l }

/-- Channel `c` releases its motor load: a release event (R101). -/
def Ev.releaseMotor (e : Ev) (c : Fin 4) : Ev :=
  let n := (e.chan c).cfg.motorLoad
  { ((e.modLoad n Load.cleared).leaveAdmission n).onBudget (fun u => u.clearMarks c) with released := true }

/-! ### Level output (R102 to R104) -/

/-- The LEVEL_SET of a load (R8, R9, R102). -/
def levelSetFrame (s : State) (n : Fin 96) : List Byte :=
  let l := s.lbu.loads[n.val]
  buildFrame kindLevelSet 1 .device s.mr.ownZone l.cfg.device s.mr.ownZone s.fe.hopBudget
    ([byteOf l.cfg.output.val] ++ bytes2 l.granted ++ [byteOf l.lastFade])

/-- Build and offer one LEVEL_SET; the flag is cleared when the place is accepted (R39, R102). -/
def State.buildLevelSet (s : State) (n : Fin 96) : Option State :=
  match s.takeBuffer Config.receptionMin with
  | none => none
  | some (b, s1) =>
    let s2 := { s1 with lbu := { s1.lbu with loads := upd s1.lbu.loads n fun l => { l with due := false } } }
    (s2.writeOwn b (levelSetFrame s n)).offerZone b 1 s.fe.hopBudget none

/-- The due loads in ascending number, until a buffer or a place is refused (R102). -/
def State.levelTryOver (s : State) : List (Fin 96) → State
  | [] => s
  | n :: rest =>
    if (s.lbu.loads[n.val]).due then
      match s.buildLevelSet n with
      | some s1 => s1.levelTryOver rest
      | none => s
    else s.levelTryOver rest

/-- A level try; none is made while unassigned (R102). -/
def State.levelTry (s : State) : State := if s.assigned then s.levelTryOver (List.finRange 96) else s

/-- The valid load with a device and output (R103). -/
def Budget.loadAt (u : Budget) (device : Byte) (output : Nat) : Option (Fin 96) :=
  (List.finRange 96).find? fun n =>
    let c := (u.loads[n.val]).cfg
    c.valid && c.device == device && c.output.val == output

/-- The Zone Port reports a LEVEL_SET of its own completed or dropped, with the frame it sent (R103). -/
def Ev.levelSetReport (e : Ev) (frame : List Byte) : Ev :=
  match e.s.lbu.loadAt (byteAt frame 2) (byteAt frame 7).toNat with
  | some n => if halfAt frame 8 = 0 then e.clearMark n else e
  | none => e

/-- A segment reset: the level of every SWITCHED and DIMMED load in ON or INRUSH is due again, and a try is
made (R104). -/
def Ev.budgetSegmentReset (e : Ev) : Ev :=
  { e.onBudget (fun u => { u with loads := mapAll u.loads fun l =>
      if l.drawing && l.cfg.type != .motor then { l with due := true } else l }) with dueSet := true }

/-! ### WRITE of LOAD (R79) -/

/-- The clamping of step 3; fields a type does not use are stored as written (log 11). -/
def LoadCfg.clamp (c : LoadCfg) : LoadCfg :=
  { c with full := min c.full 3000
           inrush := if c.type = .dimmed then c.inrush else min c.inrush 6000
           minLevel := if c.type = .dimmed then max 1 (min c.minLevel 1000) else c.minLevel }

/-- The record breaks step 4. -/
def Budget.badLoad (u : Budget) (n : Fin 96) (c : LoadCfg) : Bool :=
  c.device == 0 || 120 < c.device.toNat || (c.type != .dimmed && c.inrush < c.full) ||
    (c.valid && (List.finRange 96).any fun m =>
      let d := (u.loads[m.val]).cfg
      m != n && d.valid && d.device == c.device && d.output == c.output)

/-- The load after a write that passes; the bound channel and the shed order are kept. -/
def Load.written (l : Load) (c : LoadCfg) : Load :=
  { l with cfg := c, state := .off, granted := 0, committed := 0, requested := 0, demand := 0
           fade := .stopped, inrushTimer := .stopped, lastFade := 0, due := false }

/-- A WRITE of LOAD, judged in the order of R79. -/
def Ev.writeLoad (e : Ev) (n : Fin 96) (r : LoadCfg) : Status × Ev :=
  let l := e.load n
  if l.state ≠ .off ∨ l.due = true then (.inUse, e)
  else if l.bound.isSome = true ∧ (r.valid = false ∨ r.type ≠ .motor) then (.inUse, e)
  else if e.s.lbu.badLoad n r.clamp then (.badValue, e)
  else (if r.clamp = r then .ok else .okClamped, (e.clearMark n).modLoad n fun l => l.written r.clamp)

end Sys2Proof.Machine
end

