-- ==== Sys2Proof/Machine/Drive.lean ====
section
/-! DEFINITION. Machine/Drive.lean: the Drive Supervisor (chapter 8): stop request, stop sequence, entry to
FAULT, the start on the segment, MOTION verbs, indications, timers, lines, and the channel record. Each
operation acts within an event. -/

namespace Sys2Proof.Machine

/-! ### Entries to IDLE and FAULT (R126, R129, R146) -/

/-- Entry to IDLE: enable low, owner none, phase none, every timer cancelled. -/
def Channel.toIdle (x : Channel) : Channel :=
  { x with state := .idle, phase := .none, owner := none, timers := .stopped, enable := false }

/-- Entry to IDLE of a channel within an event. -/
def Ev.toIdle (e : Ev) (c : Fin 4) : Ev := e.modChan c Channel.toIdle

/-- What entry to FAULT makes of the channel itself, its slot apart (R129 steps 1, 3 and 6). -/
def Channel.faulted (x : Channel) (cause : FaultCause) : Channel :=
  { x with state := .fault, phase := .none, owner := none, timers := .stopped, enable := false
           faultCause := cause, faultState := x.state }

/-- HALT is written at an entry to FAULT (R129 step 2). -/
def Channel.haltsOn (x : Channel) (cause : FaultCause) : Bool :=
  cause != .segment &&
    (cause == .controllerFault || (x.state.driving && !(x.state == .starting && x.phase != .sent)))

/-- The slot at an entry to FAULT: HALT, or left empty (R129 step 2; log 13). -/
def State.faultSlot (s : State) (c : Fin 4) (cause : FaultCause) : State :=
  if (s.chan c).haltsOn cause then (s.writeSlot c .halt).getD s else s.withdraw c

/-- Entry to FAULT with a cause, from a state other than OFF and FAULT (R129). -/
def Ev.enterFault (e : Ev) (c : Fin 4) (cause : FaultCause) : Ev :=
  let from_ := (e.chan c).state
  if from_ = .off ∨ from_ = .fault then e
  else
    let e1 := e.onState fun s => s.faultSlot c cause
    let e2 := (e1.modChan c fun x => x.faulted cause).notice .fault c.val (from_.code * 256 + cause.code)
    if from_.driving then e2.releaseMotor c else e2

/-- The channels of a list that satisfy a test enter FAULT, in the list's order (R147, R148). -/
def Ev.faultWhere (e : Ev) (test : State → Fin 4 → Bool) (cause : FaultCause) : Ev :=
  (List.finRange 4).foldl (fun e c => if test e.s c then e.enterFault c cause else e) e

/-! ### Stop request, withdrawal, stop sequence (R127, R128) -/

/-- The stop sequence: the channel enters STOPPING with its stop timer, its other timers cancelled. -/
def Channel.stopping (x : Channel) (cause : StopCause) (due : Nat) : Channel :=
  { x with state := .stopping, phase := .none, stopCause := cause
           timers := { x.timers with gap := none, start := none, travel := none, jog := none
                                     stop := some due } }

/-- The stop sequence of R128. -/
def Ev.stopSequence (e : Ev) (c : Fin 4) (cause : StopCause) : Ev :=
  match e.s.writeSlot c .stop with
  | none => e.enterFault c .segment
  | some s =>
    { e with s := s }.modChan c fun x => x.stopping cause (e.s.after x.cfg.timings.stopTimeout)

/-- Withdrawal of a start in phase SHEDDING or QUEUED (R127). -/
def Ev.withdrawStart (e : Ev) (c : Fin 4) (cause : StopCause) : Ev :=
  let e1 := if (e.chan c).phase = .queued then e.onState fun s => s.withdraw c else e
  (e1.releaseMotor c).modChan c fun x => { x.toIdle with stopCause := cause }

/-- A stop request with a cause (R127). -/
def Ev.stopRequest (e : Ev) (c : Fin 4) (cause : StopCause) : Ev :=
  match (e.chan c).state with
  | .starting => if (e.chan c).phase = .sent then e.stopSequence c cause else e.withdrawStart c cause
  | .running | .jogging => e.stopSequence c cause
  | .off | .idle | .armed | .stopping | .fault => e

/-! ### The start on the segment (R140, R142, R143) -/

/-- The START of a direction. -/
def Direction.start : Direction → DriveCode
  | .a => .startA
  | .b => .startB

/-- START is written into the slot, phase QUEUED; a refused place faults the channel (R140). -/
def Ev.writeStart (e : Ev) (c : Fin 4) : Ev :=
  let e1 := e.modChan c fun x => { x with phase := .queued }
  match e1.s.writeSlot c (e1.chan c).direction.start with
  | some s => { e1 with s := s }
  | none => e1.enterFault c .segment

/-- LBU reports the shedding for a channel complete (R101, R140). -/
def Ev.sheddingComplete (e : Ev) (c : Fin 4) : Ev :=
  if (e.chan c).state = .starting ∧ (e.chan c).phase = .shedding then e.writeStart c else e

/-- What a completed START makes of the channel: enable high, start timer running (R142). -/
def Channel.startCompleted (x : Channel) (due : Nat) : Channel :=
  { x with enable := true, timers := { x.timers with start := some due } }

/-- The Zone Port reports a DRIVE command completed (R142). -/
def Ev.driveCompleted (e : Ev) (c : Fin 4) (code : DriveCode) : Ev :=
  if code.isStart = true ∧ (e.chan c).state = .starting ∧ (e.chan c).phase = .sent then
    (e.startInrush (e.chan c).cfg.motorLoad).modChan c fun x =>
      x.startCompleted (e.s.after x.cfg.timings.startTimeout)
  else e

/-- The Zone Port reports a DRIVE command dropped at its eighth bit error (R143). -/
def Ev.driveDropped (e : Ev) (c : Fin 4) (code : DriveCode) : Ev :=
  if code.isStart = true ∧ (e.chan c).state = .starting ∧ (e.chan c).phase = .sent then
    e.enterFault c .noStart
  else e

/-! ### MOTION verbs (R132 to R139) -/

/-- The four checks of R133: the notice of the first that fails, cause and value. -/
def checkFails (s : State) (c : Fin 4) (d : Direction) (o : Origin) : Option (Cause × Nat) :=
  if s.ds.loopOpen then some (.estopOpen, (originValue o))
  else
    match s.ds.excluder c with
    | some x => some (.excluded, x.val)
    | none =>
      if s.ds.trip[c.val] then some (.trip, (originValue o))
      else (firstFalse s ((s.chan c).list d)).map fun k => (.interlock, k.val)

/-- A channel armed from IDLE (R133). -/
def Channel.armed (x : Channel) (d : Direction) (o : Origin) (due : Nat) : Channel :=
  { x with state := .armed, direction := d, mode := .run, owner := some o, stopCause := .none
           timers := { x.timers with arm := some due } }

/-- A channel whose arming is renewed (R134). -/
def Channel.rearmed (x : Channel) (d : Direction) (due : Nat) : Channel :=
  { x with direction := d, timers := { x.timers with arm := some due } }

/-- ARM_A or ARM_B (R133, R134). -/
def Ev.verbArm (e : Ev) (c : Fin 4) (o : Origin) (d : Direction) : Ev :=
  let x := e.chan c
  let due := e.s.after x.cfg.timings.armWindow
  match x.state with
  | .idle =>
    match checkFails e.s c d o with
    | some (cause, value) => e.notice cause c.val value
    | none => e.modChan c fun x => x.armed d o due
  | .armed =>
    if x.owner = some o then
      match checkFails e.s c d o with
      | some (cause, value) => e.notice cause c.val value
      | none => e.modChan c fun x => x.rearmed d due
    else e.notice .busy c.val (originValue o)
  | .starting | .running | .jogging | .stopping | .fault => e.notice .busy c.val (originValue o)
  | .off => e

/-- An admitted start: phase SHEDDING, or the START written at once (R135 step 4, R137). -/
def Ev.begin (e : Ev) (c : Fin 4) (shed : Bool) : Ev :=
  if shed then e.modChan c fun x => { x with phase := .shedding } else e.writeStart c

/-- A channel that enters STARTING from ARMED in mode RUN (R135). -/
def Channel.runStarted (x : Channel) (due : Nat) : Channel :=
  { x with state := .starting, mode := .run, timers := { x.timers with arm := none, gap := some due } }

/-- RUN_CONTINUE from the owner in ARMED (R135). -/
def Ev.startRun (e : Ev) (c : Fin 4) : Ev :=
  let x := e.chan c
  match firstFalse e.s (x.list x.direction) with
  | some k => (e.toIdle c).notice .interlock c.val k.val
  | none =>
    match e.askMotor c x.cfg.motorLoad with
    | .refused => (e.toIdle c).notice .budget c.val x.cfg.motorLoad.val
    | .admitted shed e1 =>
      (e1.modChan c fun x => x.runStarted (e.s.after x.cfg.timings.runGap)).begin c shed

/-- RUN_CONTINUE (R135, R136). -/
def Ev.verbRunContinue (e : Ev) (c : Fin 4) (o : Origin) : Ev :=
  let x := e.chan c
  let renew := e.modChan c fun x =>
    { x with timers := { x.timers with gap := some (e.s.after x.cfg.timings.runGap) } }
  match x.state with
  | .armed => if x.owner = some o then e.startRun c else e.notice .notOwner c.val (originValue o)
  | .starting =>
    if x.mode = .jog then e
    else if x.owner = some o then renew else e.notice .notOwner c.val (originValue o)
  | .running => if x.owner = some o then renew else e.notice .notOwner c.val (originValue o)
  | .off | .idle | .jogging | .stopping | .fault => e

/-- RUN_FINISH (R135, R136). -/
def Ev.verbRunFinish (e : Ev) (c : Fin 4) (o : Origin) : Ev :=
  let x := e.chan c
  match x.state with
  | .armed => if x.owner = some o then e.toIdle c else e.notice .notOwner c.val (originValue o)
  | .starting =>
    if x.mode = .jog then e
    else if x.owner = some o then e.stopRequest c .finish else e.notice .notOwner c.val (originValue o)
  | .running => if x.owner = some o then e.stopRequest c .finish else e.notice .notOwner c.val (originValue o)
  | .off | .idle | .jogging | .stopping | .fault => e

/-- STOP, from any listed console (R138). -/
def Ev.verbStop (e : Ev) (c : Fin 4) : Ev :=
  match (e.chan c).state with
  | .armed => e.toIdle c
  | .starting | .running | .jogging => e.stopRequest c .stop
  | .off | .idle | .stopping | .fault => e

/-- CANCEL, from the owner (R138). -/
def Ev.verbCancel (e : Ev) (c : Fin 4) (o : Origin) : Ev :=
  if (e.chan c).state.watched = true ∧ (e.chan c).owner ≠ some o then e.notice .notOwner c.val (originValue o)
  else e.verbStop c

/-- A channel that enters STARTING from IDLE in mode JOG (R137). -/
def Channel.jogStarted (x : Channel) (d : Direction) (o : Origin) : Channel :=
  { x with state := .starting, mode := .jog, direction := d, owner := some o, stopCause := .none }

/-- JOG_A or JOG_B (R137). -/
def Ev.verbJog (e : Ev) (c : Fin 4) (o : Origin) (d : Direction) : Ev :=
  let x := e.chan c
  match x.state with
  | .idle =>
    match checkFails e.s c d o with
    | some (cause, value) => e.notice cause c.val value
    | none =>
      match e.askMotor c x.cfg.motorLoad with
      | .refused => e.notice .budget c.val x.cfg.motorLoad.val
      | .admitted shed e1 => (e1.modChan c fun x => x.jogStarted d o).begin c shed
  | .armed | .starting | .running | .jogging | .stopping | .fault => e.notice .busy c.val (originValue o)
  | .off => e

/-- The four conditions of a CLEAR hold (R139). -/
def clearHolds (s : State) (c : Fin 4) : Bool :=
  !s.ds.loopOpen && !s.ds.trip[c.val] &&
    !s.lbu.trip[((s.lbu.loads[(s.chan c).cfg.motorLoad.val]).cfg.branch).val] && s.zp.segment == .normal

/-- CLEAR from a console (R139). -/
def Ev.verbClear (e : Ev) (c : Fin 4) (o : Origin) : Ev :=
  if (e.chan c).state ≠ .fault then e
  else if clearHolds e.s c then e.toIdle c
  else e.notice .stillPresent c.val (originValue o)

/-- CLEAR from the Management Responder, with what DS tells it (R139, R166). -/
def Ev.clearRequest (e : Ev) (c : Fin 4) : Status × Ev :=
  if (e.chan c).state ≠ .fault then (.notState, e)
  else if clearHolds e.s c then (.ok, e.toIdle c)
  else (.stillPresent, e)

/-- A verb taken in the channel's present state. -/
def Ev.verb (e : Ev) (c : Fin 4) (o : Origin) : Verb → Ev
  | .armA => e.verbArm c o .a
  | .armB => e.verbArm c o .b
  | .runContinue => e.verbRunContinue c o
  | .runFinish => e.verbRunFinish c o
  | .stop => e.verbStop c
  | .cancel => e.verbCancel c o
  | .jogA => e.verbJog c o .a
  | .jogB => e.verbJog c o .b
  | .clear => e.verbClear c o

/-- A MOTION frame's verb for a channel, judged in the order of R132. -/
def Ev.motion (e : Ev) (o : Origin) (c : Fin 4) (v : Verb) : Ev :=
  if (e.chan c).state = .off then e.notice .notConfigured c.val (originValue o)
  else if (e.chan c).listed o = false then e.notice .unauthorized c.val (originValue o)
  else e.verb c o v

/-- A MOTION payload, with the checks of R10: N is 2, the channel 0 to 3, the verb 1 to 9. -/
def Ev.motionFrame (e : Ev) (o : Origin) (payload : List Byte) : Ev :=
  if h : payload.length = 2 ∧ (byteAt payload 0).toNat < 4 then
    match Verb.ofCode (byteAt payload 1) with
    | some v => e.motion o ⟨(byteAt payload 0).toNat, h.2⟩ v
    | none => e
  else e

/-! ### Controller indications (R144, R145) -/

/-- The channel of a DRIVE frame's origin (R144). -/
def driveChannel (s : State) (o : Origin) : Option (Fin 4) :=
  if o.zone = s.mr.ownZone then
    (List.finRange 4).find? fun c => (s.chan c).cfg.valid && (s.chan c).cfg.controller == o.device
  else none

/-- STARTING with the enable high, RUNNING or JOGGING: the states of a motion under way (R145). -/
def Channel.moving (x : Channel) : Bool := x.startingHigh || x.state == .running || x.state == .jogging

/-- MOVING takes a start to RUNNING or JOGGING (R145). -/
def Channel.underWay (x : Channel) (now : Nat) : Channel :=
  match x.mode with
  | .run =>
    { x with state := .running, phase := .none
             timers := { x.timers with start := none, travel := some (now + x.cfg.timings.travelLimit * 1000) } }
  | .jog =>
    { x with state := .jogging, phase := .none
             timers := { x.timers with start := none, jog := some (now + x.cfg.timings.jogTime) } }

/-- An indication for a channel (R145); a case not listed there changes nothing. -/
def Ev.indication (e : Ev) (c : Fin 4) : Indication → Ev
  | .moving => if (e.chan c).startingHigh then e.modChan c fun x => x.underWay e.s.now else e
  | .atLimit => if (e.chan c).moving then e.stopSequence c .limit else e
  | .stalled =>
    if (e.chan c).moving then e.stopSequence c .stall
    else if (e.chan c).state = .stopping then e.modChan c fun x => { x with stopCause := .stall }
    else e
  | .atRest =>
    if (e.chan c).moving then ((e.releaseMotor c).toIdle c).notice .controllerRest c.val 0
    else if (e.chan c).state = .stopping then
      if (e.chan c).stopCause = .stall then e.enterFault c .stall else (e.releaseMotor c).toIdle c
    else e
  | .faulted => e.enterFault c .controllerFault

/-- A DRIVE frame's indication (R144). -/
def Ev.drive (e : Ev) (o : Origin) (i : Indication) : Ev :=
  match driveChannel e.s o with
  | some c => e.indication c i
  | none => e.notice .foreignDrive 255 (originValue o)

/-- A DRIVE payload, with the checks of R10: N is 1, the code 8 to 12. -/
def Ev.driveFrame (e : Ev) (o : Origin) (payload : List Byte) : Ev :=
  if payload.length = 1 then
    match Indication.ofCode (byteAt payload 0) with
    | some i => e.drive o i
    | none => e
  else e

/-! ### Timers (R134, R146) -/

/-- The arm timer expires. -/
def Ev.armEnds (e : Ev) (c : Fin 4) : Ev :=
  let e1 := e.modChan c fun x => { x with timers := { x.timers with arm := none } }
  if (e.chan c).state = .armed then (e1.toIdle c).notice .armExpired c.val 0 else e1

/-- The gap timer expires. -/
def Ev.gapEnds (e : Ev) (c : Fin 4) : Ev :=
  (e.modChan c fun x => { x with timers := { x.timers with gap := none } }).stopRequest c .gap

/-- The start timer expires. -/
def Ev.startEnds (e : Ev) (c : Fin 4) : Ev :=
  let e1 := e.modChan c fun x => { x with timers := { x.timers with start := none } }
  if (e.chan c).state = .starting then e1.enterFault c .noStart else e1

/-- The stop timer expires. -/
def Ev.stopEnds (e : Ev) (c : Fin 4) : Ev :=
  let e1 := e.modChan c fun x => { x with timers := { x.timers with stop := none } }
  if (e.chan c).state = .stopping then e1.enterFault c .noStop else e1

/-- The travel timer expires. -/
def Ev.travelEnds (e : Ev) (c : Fin 4) : Ev :=
  let e1 := e.modChan c fun x => { x with timers := { x.timers with travel := none } }
  if (e.chan c).state = .running then e1.stopSequence c .travelLimit else e1

/-- The jog timer expires. -/
def Ev.jogEnds (e : Ev) (c : Fin 4) : Ev :=
  let e1 := e.modChan c fun x => { x with timers := { x.timers with jog := none } }
  if (e.chan c).state = .jogging then e1.stopSequence c .jogEnd else e1

/-! ### Lines and other blocks (R147, R148) -/

/-- The emergency-stop loop opens. -/
def Ev.loopOpens (e : Ev) : Ev :=
  (e.onState fun s => { s with ds := { s.ds with loopOpen := true } }).faultWhere
    (fun s c => (s.chan c).state.active) .estop

/-- A drive trip input is asserted: its channel faults from IDLE and from every active state. -/
def Ev.tripAsserts (e : Ev) (c : Fin 4) : Ev :=
  (e.onState fun s => { s with ds := { s.ds with trip := upd s.ds.trip c fun _ => true } }).enterFault c .trip

/-- LBU reports a branch trip: active channels with their motor load on the branch fault. -/
def Ev.branchTripChannels (e : Ev) (b : Fin 4) : Ev :=
  e.faultWhere
    (fun s c => (s.chan c).state.active && (s.lbu.loads[(s.chan c).cfg.motorLoad.val]).cfg.branch == b)
    .branchTrip

/-- The segment is FAULTED or reset: every active channel faults. -/
def Ev.segmentChannels (e : Ev) : Ev := e.faultWhere (fun s c => (s.chan c).state.active) .segment

/-! ### The channel record (R124, R125) -/

/-- A valid record of part 0 breaks one of the tests of R124. -/
def badPart0 (s : State) (c : Fin 4) (r : ChanPart0) : Bool :=
  let l := s.lbu.loads[r.motorLoad.val]
  r.controller == 0 || 120 < r.controller.toNat || r.exclusion.getLsbD c.val ||
    !l.cfg.valid || l.cfg.type != .motor || (l.bound.isSome && l.bound != some c) ||
    (List.finRange 4).any fun d => d != c && (s.chan d).cfg.valid && (s.chan d).cfg.controller == r.controller

/-- LBU marks the load a valid record names as bound to the channel, and no other (R124). -/
def Budget.rebind (u : Budget) (c : Fin 4) (load : Option (Fin 96)) : Budget :=
  { u with loads := mapIdx u.loads fun n l =>
      if load = some n then { l with bound := some c }
      else if l.bound = some c then { l with bound := none } else l }

/-- The channel after a write of part 0 that is not refused (R124). -/
def Channel.written0 (x : Channel) (r : ChanPart0) : Channel :=
  let y := { x with cfg := { x.cfg with valid := r.valid, exclusion := r.exclusion
                                        controller := r.controller, motorLoad := r.motorLoad } }
  if r.valid = false then { y with state := .off, phase := .none, owner := none, timers := .stopped, enable := false }
  else if x.state = .off then y.toIdle
  else y

/-- A WRITE of part 0 (R124). -/
def Ev.writePart0 (e : Ev) (c : Fin 4) (r : ChanPart0) : Status × Ev :=
  if (e.chan c).state.active then (.inUse, e)
  else if r.valid = true ∧ badPart0 e.s c r = true then (.badValue, e)
  else
    (.ok, (e.onBudget fun u => u.rebind c (if r.valid then some r.motorLoad else none)).modChan c
      fun x => x.written0 r)

/-- A number moved to the nearer end of a range. -/
def clampTo (low high n : Nat) : Nat := max low (min high n)

/-- The clamping of part 2 (R123, R125). -/
def Timings.clamp (t : Timings) : Timings :=
  { armWindow := clampTo 100 5000 t.armWindow, runGap := clampTo 50 1000 t.runGap
    startTimeout := clampTo 100 2000 t.startTimeout, stopTimeout := clampTo 100 5000 t.stopTimeout
    travelLimit := clampTo 1 600 t.travelLimit, jogTime := clampTo 50 1000 t.jogTime }

/-- A WRITE of part 1, 2 or 3 stores into the configuration unless the channel is active (R125). -/
def Ev.writePart (e : Ev) (c : Fin 4) (st : Status) (f : ChanCfg → ChanCfg) : Status × Ev :=
  if (e.chan c).state.active then (.inUse, e)
  else (st, e.modChan c fun x => { x with cfg := f x.cfg })

/-- A WRITE of part 1. -/
def Ev.writePart1 (e : Ev) (c : Fin 4) (consoles : List Origin) : Status × Ev :=
  e.writePart c .ok fun x => { x with consoles := consoles }

/-- A WRITE of part 2. -/
def Ev.writePart2 (e : Ev) (c : Fin 4) (t : Timings) : Status × Ev :=
  e.writePart c (if t.clamp = t then .ok else .okClamped) fun x => { x with timings := t.clamp }

/-- A WRITE of part 3. -/
def Ev.writePart3 (e : Ev) (c : Fin 4) (a b : List (Fin 48)) : Status × Ev :=
  e.writePart c .ok fun x => { x with listA := a, listB := b }

/-! ### Status (R149) -/

/-- The data of READ_STATUS item CHANNEL (R15, R149). -/
def Channel.statusData (x : Channel) : List Byte :=
  [ byteOf x.state.code, byteOf (if x.state = .starting then x.phase.code else 0), byteOf x.mode.code,
    byteOf x.direction.code, x.owner.elim 0 Origin.zone, x.owner.elim 0 Origin.device,
    byteOf (x.command.elim 0 fun k => k.code.code), byteOf x.stopCause.code, byteOf x.faultCause.code,
    byteOf x.faultState.code, if x.enable then 1 else 0 ]

/-! ### RESTART (R150) -/

/-- A channel after RESTART. -/
def Channel.restarted (x : Channel) : Channel :=
  { x with state := if x.cfg.valid then .idle else .off
           phase := .none, owner := none, stopCause := .none, timers := .stopped
           command := none, enable := false }

end Sys2Proof.Machine
end

