-- ==== Sys2Proof/Machine/Points.lean ====
section
/-! DEFINITION. Machine/Points.lean: the Point Monitor (chapter 5) and the Interlock Evaluator (chapter 9). -/

namespace Sys2Proof.Machine

/-! ### A condition turning false (R156) -/

/-- DS handles a channel some of whose conditions, among `ks`, have turned false (R156). -/
def Ev.conditionFalse (e : Ev) (ks : List (Fin 48)) (c : Fin 4) : Ev :=
  let x := e.chan c
  match (x.list x.direction).find? fun k => ks.contains k || !condTrue e.s k with
  | none => e
  | some k =>
    let e1 := e.notice .interlock c.val k.val
    if x.state = .armed then e1.toIdle c else e1.stopRequest c .interlock

/-- The conditions of a list, false at this moment, are reported to each channel that uses one of them, in
ascending channel number (R156). -/
def Ev.reportFalse (e : Ev) (ks : List (Fin 48)) : Ev :=
  (List.finRange 4).foldl (fun e c => if ks.any fun k => (e.chan c).uses k then e.conditionFalse ks c else e) e

/-- The valid conditions on a point that are not true (R154). -/
def falseConditions (s : State) (p : Fin 64) : List (Fin 48) :=
  (List.finRange 48).filter fun k =>
    (s.ie.conditions[k.val]).valid && (s.ie.conditions[k.val]).point == p && !condTrue s k

/-- The Interlock Evaluator takes an update event of a point (R154). Freshness expiries are computed from the
point's last update, so they move with it (log 15). -/
def Ev.pointUpdated (e : Ev) (p : Fin 64) : Ev := e.reportFalse (falseConditions e.s p)

/-- The freshness expiry of a condition, which makes it false (R155). -/
def Ev.conditionStale (e : Ev) (k : Fin 48) : Ev := e.reportFalse [k]

/-! ### Source mode (R75, R76) -/

/-- The source mode a point reports: its value while VALID and 0 to 3. -/
def Point.reports (p : Point) : Option SourceMode :=
  match p.state with
  | .unknown => none
  | .valid v _ => if h : v.toNat < 4 then some (.ofIndex ⟨v.toNat, h⟩) else none

/-- A source-mode report of a point to LBU. -/
def Ev.sourceReport (e : Ev) (k : Fin 64) : Ev :=
  match (e.s.pm.points[k.val]).reports with
  | some m => e.setMode m
  | none => e

/-- SET_MODE FROM_POINT (R76, R87). -/
def Ev.selectPoint (e : Ev) (k : Fin 64) : Ev :=
  (e.onBudget fun u => { u with selector := .fromPoint k }).sourceReport k

/-! ### STATE frames (R70 to R72) -/

/-- A point is fed by a STATE frame of an origin with N payload bytes (R70). -/
def Point.fedBy (p : Point) (o : Origin) (n : Nat) : Bool :=
  p.cfg.valid && p.cfg.source == o && 2 * p.cfg.position.val + 2 ≤ n

/-- A fed point takes its value and becomes VALID with age 0 (R71). -/
def Point.take (p : Point) (payload : List Byte) (now : Nat) : Point :=
  { p with state := .valid (halfAt payload (2 * p.cfg.position.val)) now }

/-- The numbers of the points a frame feeds, ascending. -/
def PointMonitor.fed (m : PointMonitor) (o : Origin) (n : Nat) : List (Fin 64) :=
  (List.finRange 64).filter fun k => (m.points[k.val]).fedBy o n

/-- The Point Table after a frame: every fed point has its value. -/
def PointMonitor.feed (m : PointMonitor) (o : Origin) (payload : List Byte) (now : Nat) : PointMonitor :=
  { points := mapAll m.points fun p => if p.fedBy o payload.length then p.take payload now else p }

/-- A STATE frame shown to the Point Monitor: the values, then the update events in ascending point number, then
the source-mode report (R72). -/
def Ev.snoop (e : Ev) (o : Origin) (payload : List Byte) : Ev :=
  let fed := e.s.pm.fed o payload.length
  let e1 := e.onState fun s => { s with pm := s.pm.feed o payload s.now }
  let e2 := fed.foldl Ev.pointUpdated e1
  match e2.s.lbu.selector with
  | .manual => e2
  | .fromPoint k => if fed.contains k then e2.sourceReport k else e2

/-! ### Writes (R68, R69, R151) -/

/-- The point is VALID. -/
def PointState.isValid : PointState → Bool
  | .unknown => false
  | .valid .. => true

/-- A WRITE of POINT (R68, R69). -/
def Ev.writePoint (e : Ev) (k : Fin 64) (r : PointCfg) : Status × Ev :=
  if pointInUse e.s k then (.inUse, e)
  else
    let lost := (e.s.pm.points[k.val]).state.isValid
    let e1 := e.onState fun s => { s with pm := { points := upd s.pm.points k fun _ => ⟨r, .unknown⟩ } }
    (.ok, if lost then e1.pointUpdated k else e1)

/-- The freshness limit as stored (R151). -/
def Condition.clamp (c : Condition) : Condition :=
  { c with limit := if c.limit = 0 then 0 else clampTo 100 60000 c.limit }

/-- A WRITE of CONDITION (R151). -/
def Ev.writeCondition (e : Ev) (k : Fin 48) (r : Condition) : Status × Ev :=
  if inUse e.s k then (.inUse, e)
  else
    (if r.clamp = r then .ok else .okClamped,
      e.onState fun s => { s with ie := { conditions := upd s.ie.conditions k fun _ => r.clamp } })

/-- The Point Table after RESTART (R77). -/
def PointMonitor.restarted (m : PointMonitor) : PointMonitor :=
  { points := mapAll m.points fun p => { p with state := .unknown } }

end Sys2Proof.Machine
end

