-- ==== Sys2Proof/Machine/Settle.lean ====
section
/-! DEFINITION. Machine/Settle.lean: what the end of an event does: LBU brings its flags up to date, makes the
restore walk and its level try, and MR makes its notice try (R84, R89, R101, R102, R169; log 6, 7, 17). -/

namespace Sys2Proof.Machine

/-! ### End of an event at LBU -/

/-- One round: flags cleared (R89), and the restore walk of a release event (R84, R85). -/
def Ev.restoreRound (e : Ev) : Ev :=
  let e1 := e.onBudget Budget.clearOver
  if e1.released then { e1 with released := false }.restoreWalk e1.s.lbu.shedList else e1

/-- Rounds until no channel's shedding is left to report; a report can fault its channel and so release a motor
load, hence a further round (R101, R140). Each of the four channels is reported at most once in an event. -/
def Ev.settleRounds : Nat → Ev → Ev
  | 0, e => e
  | fuel + 1, e =>
    let e1 := e.restoreRound
    match e1.shedDone with
    | [] => e1
    | c :: rest => settleRounds fuel ({ e1 with shedDone := rest }.sheddingComplete c)

/-- The end of an event at LBU: settled, with a level try when a flag was set (R102). -/
def Ev.settle (e : Ev) : Ev :=
  let e1 := e.settleRounds 6
  if e1.dueSet then { e1 with s := e1.s.levelTry, dueSet := false } else e1

/-! ### Notices (R168, R169) -/

/-- What a try does next with the head notice. -/
inductive NoticeStep where
  | broadcast
  | send (i : Fin 2)
  | done
  deriving DecidableEq, Repr

/-- The table of R169: the destination of the next frame, by the Manager List and the mark. -/
def Management.noticeStep (m : Management) : NoticeStep :=
  match (List.finRange 2).find? fun i => m.headMark ≤ i.val && (m.managers[i.val]).valid with
  | some i => .send i
  | none => if m.headMark = 0 then .broadcast else .done

/-- The head notice leaves the queue, and the next becomes the head with mark 0 (R168). -/
def State.popNotice (s : State) : State :=
  { s with mr := { s.mr with notices := s.mr.notices.tail, headMark := 0 } }

/-- Places of one buffer on queues A and B; none when both refuse (R39, R169). -/
def State.offerBoth (s : State) (b : Fin 48) (cls : Fin 4) (hop : BitVec 4) : Option State :=
  match s.offerTrunk .a b cls hop with
  | some s1 => some ((s1.offerTrunk .b b cls hop).getD s1)
  | none => s.offerTrunk .b b cls hop

/-- What came of one NOTICE frame (R169). -/
inductive Sent where
  | noBuffer
  | refused
  | sent (s : State)

/-- Build and offer one NOTICE frame (R8, R12, R39). A refused frame's buffer is returned, which leaves the pool
as it was (log 8). -/
def State.sendNotice (s : State) (t : DestType) (b1 b2 : Byte) (n : Notice) : Sent :=
  match s.takeBuffer Config.originMin with
  | none => .noBuffer
  | some (b, s1) =>
    let frame := buildFrame kindNotice 2 t b1 b2 s.mr.ownZone s.fe.hopBudget (noticePayload n)
    match (s1.writeOwn b frame).offerBoth b 2 s.fe.hopBudget with
    | some s2 => .sent s2
    | none => .refused

/-- The mark after a frame to entry `i`; with no valid entry left above it the notice is done (R169). -/
def State.noticeSentTo (s : State) (i : Fin 2) : State :=
  if (List.finRange 2).any fun j => i.val < j.val && (s.mr.managers[j.val]).valid then
    { s with mr := { s.mr with headMark := i.val + 1 } }
  else s.popNotice

/-- No further try is made until a trunk port enters UP (R169). -/
def State.waitForUp (s : State) : State := { s with mr := { s.mr with waitUp := true } }

/-- A notice try (R169). Sixteen notices of at most three steps each bound it. -/
def State.noticeTryFor : Nat → State → State
  | 0, s => s
  | fuel + 1, s =>
    match s.mr.notices with
    | [] => s
    | n :: _ =>
      if s.mr.waitUp then s
      else
        match s.mr.noticeStep with
        | .done => noticeTryFor fuel s.popNotice
        | .broadcast =>
          match s.sendNotice .shipAll 0 0 n with
          | .noBuffer => s
          | .refused => s.waitForUp
          | .sent s1 => noticeTryFor fuel s1.popNotice
        | .send i =>
          let o := (s.mr.managers[i.val]).origin
          match s.sendNotice .device o.zone o.device n with
          | .noBuffer => s
          | .refused => s.waitForUp
          | .sent s1 => noticeTryFor fuel (s1.noticeSentTo i)

/-- A notice try (R169). -/
def State.noticeTry (s : State) : State := s.noticeTryFor 48

/-! ### Replies (R161, R167) -/

/-- The queue of the port a request came in by takes the reply's place (R161). -/
def State.offerReply (s : State) (p : Port) (b : Fin 48) : Option State :=
  match p with
  | .a => s.offerTrunk .a b 2 s.fe.hopBudget
  | .b => s.offerTrunk .b b 2 s.fe.hopBudget
  | .zone => s.offerZone b 2 s.fe.hopBudget none

/-- The MGMT_REPLY to an origin (R8, R13, R161). -/
def replyFrame (s : State) (o : Origin) (code tag : Byte) (st : Status) (data : List Byte) : List Byte :=
  buildFrame kindMgmtReply 2 .device o.zone o.device s.mr.ownZone s.fe.hopBudget
    (code :: tag :: st.code :: data)

/-- The reply is written into the buffer held for it, and its place offered. -/
def State.sendReply (s : State) (p : Port) (b : Fin 48) (o : Origin) (code tag : Byte) (st : Status)
    (data : List Byte) : Option State :=
  (s.writeOwn b (replyFrame s o code tag st data)).offerReply p b

/-- A try to send the pending restart reply (R167). -/
def State.replyTry (s : State) : State :=
  match s.mr.pendingReply with
  | none => s
  | some r =>
    match s.takeBuffer Config.originMin with
    | none => s
    | some (b, s1) =>
      match s1.sendReply r.port b r.origin r.code r.tag .ok [] with
      | some s2 => { s2 with mr := { s2.mr with pendingReply := none } }
      | none => s

/-! ### End of an event -/

/-- The end of an event: LBU settles, then a notice try when a notice was queued (R169; log 6, 7). -/
def Ev.close (e : Ev) : State :=
  let e1 := e.settle
  if e1.noticed then e1.s.noticeTry else e1.s

end Sys2Proof.Machine
end

