-- ==== Sys2Proof/Machine/Ports.lean ====
section
/-! DEFINITION. Machine/Ports.lean: the trunk ports and the Zone Port (chapter 2): link state, reception,
transmission, the shared segment, the segment reset, and the taking of a rise of the free count (R41). -/

namespace Sys2Proof.Machine

/-! ### Judging a received frame (R21, R25) -/

/-- How a frame ended. -/
inductive FrameEnd where
  | tooLong
  | cut
  | badCheck
  | good
  deriving DecidableEq, Repr

/-- The judging of a trunk frame (R21). -/
def judgeTrunk (bytes : List Byte) : FrameEnd :=
  if frameTooLong bytes then .tooLong
  else if !frameComplete bytes then .cut
  else if !checkGood (frameOf bytes) then .badCheck
  else .good

/-- The judging of a zone frame (R25): a frame cut short is aborted whatever it announced. -/
def judgeZone (bytes : List Byte) : FrameEnd :=
  if !frameComplete bytes then .cut
  else if frameTooLong bytes then .tooLong
  else if !checkGood (frameOf bytes) then .badCheck
  else .good

/-- A good frame passes to the tail of FE's hold list with its reference (R21, R25, R50). -/
def State.handOver (s : State) (b : Fin 48) (p : Port) : State :=
  { s with fe := { s.fe with hold := s.fe.hold ++ [⟨b, p⟩] } }

/-! ### Trunk ports -/

/-- The link state at the end of a good frame (R18). -/
def TrunkPort.heard (p : TrunkPort) (now : Nat) : TrunkPort :=
  { p with link := .up, silence := some (now + Config.silenceMs) }

/-- Entry to UP, reported to MR: the pending restart reply of that port, then a notice try (R167, R169). -/
def State.enteredUp (s : State) (t : Trunk) : State :=
  let s1 := if s.mr.pendingReply.any fun r => r.port == t.port then s.replyTry else s
  { s1 with mr := { s1.mr with waitUp := false } }.noticeTry

/-- A frame with a buffer ends at a trunk port (R18, R21). -/
def State.endTrunkFrame (s : State) (t : Trunk) (b : Fin 48) (bytes : List Byte) : State :=
  let s0 := s.modTrunk t fun p => { p with rx := none }
  match judgeTrunk bytes with
  | .tooLong =>
    ((s0.storeFrame b (frameOf bytes) false true false).modTrunk t fun p =>
      { p with counters := p.counters.addLong }).dropRef b
  | .cut | .badCheck =>
    ((s0.storeFrame b (frameOf bytes) false false false).modTrunk t fun p =>
      { p with counters := p.counters.addBad }).dropRef b
  | .good =>
    let s1 := (s0.storeFrame b (frameOf bytes) true false false).modTrunk t fun p =>
      { p with counters := p.counters.addGood }.heard s.now
    let s2 := if frameKind bytes = kindBeat then s1.dropRef b else s1.handOver b t.port
    if (s.trunk t).link = .down then s2.enteredUp t else s2

/-- A frame ends at a trunk port; a frame dropped whole is only followed to its end (R20). -/
def State.endTrunk (s : State) (t : Trunk) (bytes : List Byte) : State :=
  match (s.trunk t).rx with
  | none => s
  | some ⟨none⟩ => s.modTrunk t fun p => { p with rx := none }
  | some ⟨some b⟩ => s.endTrunkFrame t b bytes

/-- A frame start at a trunk port; it cuts short a frame under way, of which `cut` has arrived (R17, R20, R21). -/
def State.startTrunk (s : State) (t : Trunk) (cut : List Byte) : State :=
  let s1 := s.endTrunk t cut
  let (r, s2) := s1.takeReception t.port
  s2.modTrunk t fun p =>
    { p with rx := some r, counters := if r.buf.isNone then p.counters.addNoBuffer else p.counters }

/-- Entry to DOWN (R19): the queue emptied, a transmission cut off, the beat timer started. -/
def State.enterDown (s : State) (t : Trunk) : State :=
  (s.modTrunk t fun p =>
    { p with link := .down, silence := none, tx := none, beat := some (s.now + Config.beatMs)
             queue := p.queue.clear }).dropRefs (s.trunk t).queue.buffers

/-- The silence timer expires (R18, R19). -/
def State.silenceEnds (s : State) (t : Trunk) : State :=
  match (s.trunk t).silence with
  | none => s
  | some d => (s.reach d).enterDown t

/-- The beat timer expires: a BEAT is built and sent at once (R23). -/
def State.beatEnds (s : State) (t : Trunk) : State :=
  match (s.trunk t).beat with
  | none => s
  | some d =>
    (s.reach d).modTrunk t fun p => { p with tx := some ⟨.beat, beatFrame s.mr.ownZone⟩, beat := none }

/-- After a completion the next place is begun, or the beat timer starts (R22, R23). -/
def State.trunkNext (s : State) (t : Trunk) : State :=
  if (s.trunk t).queue.places.isEmpty then
    s.modTrunk t fun p => { p with beat := some (s.now + Config.beatMs) }
  else s.trunkBegin t

/-- A trunk transmission completes (R22, R23). -/
def State.trunkCompletes (s : State) (t : Trunk) : State :=
  match (s.trunk t).tx with
  | none => s
  | some tx =>
    let s1 := s.modTrunk t fun p => { p with tx := none, counters := p.counters.addSent }
    match tx.origin with
    | .beat => s1.trunkNext t
    | .buffer b => ((s1.modTrunk t fun p => { p with queue := p.queue.dropBuffer b }).dropRef b).trunkNext t

/-! ### Zone Port: reception -/

/-- A frame with a buffer ends on the segment (R25). -/
def State.endZoneFrame (s : State) (b : Fin 48) (bytes : List Byte) : State :=
  let s0 := s.modZone fun z => { z with rx := none }
  match judgeZone bytes with
  | .cut =>
    ((s0.storeFrame b (frameOf bytes) false (frameTooLong bytes) true).modZone fun z =>
      { z with counters := z.counters.addLong }).dropRef b
  | .tooLong =>
    ((s0.storeFrame b (frameOf bytes) false true false).modZone fun z =>
      { z with counters := z.counters.addLong }).dropRef b
  | .badCheck =>
    ((s0.storeFrame b (frameOf bytes) false false false).modZone fun z =>
      { z with counters := z.counters.addBad }).dropRef b
  | .good =>
    let s1 := (s0.storeFrame b (frameOf bytes) true false false).modZone fun z =>
      { z with counters := z.counters.addGood }
    if frameKind bytes = kindBeat then s1.dropRef b else s1.handOver b .zone

/-- A frame ends on the segment; one dropped whole is only followed to its end. -/
def State.endZone (s : State) (bytes : List Byte) : State :=
  match s.zp.rx with
  | none => s
  | some ⟨none⟩ => s.modZone fun z => { z with rx := none }
  | some ⟨some b⟩ => s.endZoneFrame b bytes

/-- The Zone Port becomes a receiver: at a frame start, or partway into a frame (R25, R27, R28). -/
def State.receiveZone (s : State) : State :=
  let (r, s1) := s.takeReception .zone
  s1.modZone fun z =>
    { z with rx := some r, counters := if r.buf.isNone then z.counters.addNoBuffer else z.counters }

/-- A frame start on the segment; ignored while FAULTED (R24, R25, R31). On a line that is not idle it is a frame
start too (R26; DESIGN CHOICE, unsafe, log 5). -/
def State.startZone (s : State) : State :=
  let s1 := s.modZone fun z => { z with lineIdle := false }
  if s.zp.segment = .normal ∧ s.zp.rx = none ∧ s.zp.sending = false then s1.receiveZone else s1

/-! ### Zone Port: the line (R24, R26, R30, R31) -/

/-- The frame in the shifter is tried before anything new is taken from the queue (R26). -/
def State.tryZone (s : State) : State :=
  if s.zp.canSend && s.zp.shifter.isSome then s.beginAttempt else s.zoneKick

/-- The line is idle: a frame not yet complete, of which `cut` has arrived, is aborted, and an attempt begins
(R24, R25, R26; log 5). -/
def State.idleZone (s : State) (cut : List Byte) : State :=
  if s.zp.lineDominant = true ∨ s.zp.sending = true then s
  else ((s.endZone cut).modZone fun z => { z with lineIdle := true }).tryZone

/-- The line goes from recessive to dominant (R30, R31). -/
def ZonePort.goesDominant (z : ZonePort) (now : Nat) : ZonePort :=
  if z.lineDominant then z
  else
    { z with lineDominant := true, lineIdle := false, recovery := none
             stuck := if z.segment = .normal then some (now + Config.stuckMs) else none }

/-- The line goes from dominant to recessive (R30, R31). -/
def ZonePort.goesRecessive (z : ZonePort) (now : Nat) : ZonePort :=
  if z.lineDominant then
    { z with lineDominant := false, stuck := none
             recovery := if z.segment = .faulted then some (now + Config.recoveryMs) else none }
  else z

/-! ### Zone Port: attempts (R27 to R29) -/

/-- Arbitration is lost: the frame stays in the shifter, its attempt count unchanged (R27). -/
def State.loseArbitration (s : State) : State :=
  if s.zp.sending then (s.modZone fun z => { z with sending := false }).receiveZone else s

/-- A LEVEL_SET built by LBU is in the shifter, from this buffer (R28, R29). -/
def State.ownLevelSet (s : State) (b : Fin 48) (bytes : List Byte) : Bool :=
  frameKind bytes == kindLevelSet && (s.buf b).status.arrival == .internal

/-- The value of notice TX_FAILED: byte 0 and byte 2 of the frame (R12, R28). -/
def txFailedValue (bytes : List Byte) : Nat := (byteAt bytes 0).toNat * 256 + (byteAt bytes 2).toNat

/-- The shifter is emptied of its frame, and a buffer place removed with its reference (R28, R29, R46). -/
def State.unloadShifter (s : State) (x : Shifter) : State :=
  let s1 := s.modZone fun z => { z with shifter := none }
  match x.origin with
  | .buffer b => (s1.modZone fun z => { z with queue := z.queue.dropBuffer b }).dropRef b
  | .slot .. => s1

/-- The frame in the shifter is dropped at its eighth bit error (R28). -/
def State.dropZoneFrame (s : State) (x : Shifter) : State :=
  let e := (((s.unloadShifter x).modZone fun z => { z with counters := z.counters.addFailed }).event).notice
    .txFailed 2 (txFailedValue x.bytes)
  (match x.origin with
    | .buffer b => if s.ownLevelSet b x.bytes then e.levelSetReport x.bytes else e
    | .slot c code => e.driveDropped c code).close

/-- A bit error: the attempt is abandoned and counted, and the port receives (R28). -/
def State.bitError (s : State) : State :=
  match s.zp.shifter with
  | none => s
  | some x =>
    if s.zp.sending = false then s
    else
      let y : Shifter := { x with attempts := x.attempts + 1 }
      let s1 := (s.modZone fun z => { z with sending := false, shifter := some y }).receiveZone
      if y.attempts < Config.maxAttempts then s1 else s1.dropZoneFrame y

/-- An attempt completes (R29). -/
def State.attemptCompletes (s : State) : State :=
  match s.zp.shifter with
  | none => s
  | some x =>
    if s.zp.sending = false then s
    else
      let e := ((s.unloadShifter x).modZone fun z =>
        { z with sending := false, counters := z.counters.addSent }).event
      (match x.origin with
        | .buffer b => if s.ownLevelSet b x.bytes then e.levelSetReport x.bytes else e
        | .slot c code => e.driveCompleted c code).close

/-! ### Zone Port: FAULTED and the segment reset (R30, R32) -/

/-- All four command slots are emptied. -/
def Drive.emptySlots (d : Drive) : Drive :=
  { d with channels := mapAll d.channels fun x => { x with command := none } }

/-- A reception is abandoned: counted when it held a buffer, since a frame dropped whole is counted already
(R30, R32, R33; log 25). -/
def State.abandonZone (s : State) : State :=
  match s.zp.rx with
  | none => s
  | some ⟨none⟩ => s.modZone fun z => { z with rx := none }
  | some ⟨some b⟩ => (s.modZone fun z => { z with rx := none, counters := z.counters.addLong }).dropRef b

/-- What entry to FAULTED and a segment reset empty: reception, shifter, zone queue and slots. -/
def State.emptySegment (s : State) : State :=
  let s1 := s.abandonZone
  let s2 := (s1.modZone fun z => { z with shifter := none, sending := false, queue := z.queue.clear }).dropRefs
    s1.zp.queue.buffers
  { s2 with ds := s2.ds.emptySlots }

/-- The Zone Port enters FAULTED (R30). -/
def Ev.segmentFaults (e : Ev) : Ev :=
  let e1 := e.onState fun s => s.emptySegment.modZone fun z =>
    { z with segment := .faulted, stuck := none
             recovery := if z.lineDominant then none else some (s.now + Config.recoveryMs) }
  e1.segmentChannels.notice .segmentFault 2 0

/-- A segment reset, with what DS and LBU make of it (R32, R104, R148). The OVERCOMMIT flags are kept, as R106 has it
against R89 (DESIGN CHOICE, unsafe, log 27). -/
def Ev.segmentReset (e : Ev) : Ev :=
  (e.onState fun s => s.emptySegment.modZone fun z =>
    { z with segment := .normal, recovery := none
             stuck := if z.lineDominant then some (s.now + Config.stuckMs) else none }).segmentChannels.budgetSegmentReset

/-- The stuck timer expires in NORMAL (R30). -/
def State.stuckEnds (s : State) : State :=
  match s.zp.stuck with
  | none => s
  | some d => ((s.reach d).event).segmentFaults.close

/-- The recovery timer expires (R31, R32). -/
def State.recoveryEnds (s : State) : State :=
  match s.zp.recovery with
  | none => s
  | some d => ((s.reach d).event).segmentReset.close

/-! ### Rises of the free count (R41) -/

/-- LBU takes a reported rise: a level try (R102). -/
def State.lbuTakesRise (s : State) : State :=
  if s.pool.riseLbu = 0 then s
  else { s with pool := { s.pool with riseLbu := s.pool.riseLbu - 1 } }.levelTry

/-- MR takes a reported rise: the pending restart reply, then a notice try (R167, R169). -/
def State.mrTakesRise (s : State) : State :=
  if s.pool.riseMr = 0 then s
  else { s with pool := { s.pool with riseMr := s.pool.riseMr - 1 } }.replyTry.noticeTry

end Sys2Proof.Machine
end

