-- ==== Sys2Proof/Machine/Scenes.lean ====
section
/-! DEFINITION. Machine/Scenes.lean: the Scene Expander (chapter 7). -/

namespace Sys2Proof.Machine

def Ev.onScenes (e : Ev) (f : SceneExpander → SceneExpander) : Ev := e.onState fun s => { s with sx := f s.sx }

/-! ### Slots (R110, R112, R116) -/

/-- The recall order of a slot; a FREE slot has none, read as 0. -/
def SceneExpander.order (x : SceneExpander) (i : Fin 4) : Nat := (x.slots[i.val]).elim 0 SceneSlot.order

/-- The slot that holds a scene. -/
def SceneExpander.slotOf (x : SceneExpander) (s : Fin 128) : Option (Fin 4) :=
  (List.finRange 4).find? fun i => (x.slots[i.val]).any fun a => a.scene == s

/-- The lowest-numbered FREE slot. -/
def SceneExpander.freeSlot (x : SceneExpander) : Option (Fin 4) :=
  (List.finRange 4).find? fun i => (x.slots[i.val]).isNone

/-- The slot with the earliest recall order. -/
def SceneExpander.earliest (x : SceneExpander) : Fin 4 :=
  ((List.finRange 4).find? fun i => (List.finRange 4).all fun j => x.order i ≤ x.order j).getD 0

/-- Every entry of a slot is removed, none applied. -/
def SceneExpander.dropSlot (x : SceneExpander) (i : Fin 4) : SceneExpander :=
  { x with delayed := x.delayed.filter fun d => d.slot != i }

/-- A slot takes a scene with the next recall order (R112). -/
def SceneExpander.occupy (x : SceneExpander) (i : Fin 4) (s : Fin 128) : SceneExpander :=
  { x with slots := upd x.slots i fun _ => some ⟨s, x.nextRecall⟩, nextRecall := x.nextRecall + 1 }

/-- Each ACTIVE slot that holds no entry becomes FREE (R116). -/
def SceneExpander.freeEmpty (x : SceneExpander) : SceneExpander :=
  { x with slots := mapIdx x.slots fun i a => if x.delayed.any fun d => d.slot == i then a else none }

/-- The slot choice of a recall, with the notice of an eviction (R112). -/
def Ev.chooseSlot (e : Ev) (s : Fin 128) : Fin 4 × Ev :=
  match e.s.sx.slotOf s with
  | some i => (i, e.onScenes fun x => (x.dropSlot i).occupy i s)
  | none =>
    match e.s.sx.freeSlot with
    | some i => (i, e.onScenes fun x => x.occupy i s)
    | none =>
      let i := e.s.sx.earliest
      let ended := (e.s.sx.slots[i.val]).elim 0 fun a => a.scene.val
      (i, (e.notice .scenePreempted ended s.val).onScenes fun x => (x.dropSlot i).occupy i s)

/-! ### The Action Pool and the Delayed Action List (R108, R117) -/

/-- Action `i` of the pool; past its end none is ever named. -/
def SceneExpander.action (x : SceneExpander) (i : Nat) : ActionRec :=
  if h : i < 1024 then x.actions[i] else ⟨0, 0, 0, 0⟩

/-- The range of a scene: its indices in ascending order; an invalid scene's is empty (R107). -/
def SceneRec.range (r : SceneRec) : List Nat :=
  if r.valid then (List.range r.count).map (r.first + ·) else []

/-- Entry `n` stands before entry `q`: by due time, then by the slot's recall order, then by action index
(R117). -/
def before (order : Fin 4 → Nat) (n q : Delayed) : Bool :=
  n.due < q.due ||
    (n.due == q.due && (order n.slot < order q.slot ||
      (order n.slot == order q.slot && n.action < q.action)))

/-- An entry is put at the place the order gives it (R117). -/
def insertDelayed (order : Fin 4 → Nat) (n : Delayed) : List Delayed → List Delayed
  | [] => [n]
  | q :: rest => if before order n q then n :: q :: rest else q :: insertDelayed order n rest

/-- Entries of other slots for the loads a scene names are removed (R113). -/
def SceneExpander.newerWins (x : SceneExpander) (i : Fin 4) (loads : List Nat) : SceneExpander :=
  { x with delayed := x.delayed.filter fun d => d.slot == i || !loads.contains d.load }

/-! ### Recall (R111 to R116, R119) -/

/-- Applying an action hands LBU one level request (R119). -/
def Ev.applyAction (e : Ev) (load level fade : Nat) : Ev :=
  if h : load < 96 then e.levelRequest ⟨load, h⟩ level fade else e

/-- One action of the walk (R114, R115). -/
def Ev.walkAction (e : Ev) (slot : Fin 4) (s : Fin 128) (index : Nat) : Ev :=
  let a := e.s.sx.action index
  if a.delay = 0 then e.applyAction a.load a.level a.fade
  else if e.s.sx.delayed.length < Config.delayedMax then
    e.onScenes fun x =>
      { x with delayed := insertDelayed x.order
                 ⟨e.s.now + a.delay * 100, slot, index, a.load, a.level, a.fade⟩ x.delayed }
  else (e.notice .sceneDelayLost s.val index).applyAction a.load a.level a.fade

/-- The recall of a valid scene (R112 to R116). -/
def Ev.recallValid (e : Ev) (s : Fin 128) : Ev :=
  let range := (e.s.sx.scenes[s.val]).range
  let (slot, e1) := e.chooseSlot s
  let e2 := e1.onScenes fun x => x.newerWins slot (range.map fun i => (x.action i).load)
  (range.foldl (fun e i => e.walkAction slot s i) e2).onScenes SceneExpander.freeEmpty

/-- A recall, and whether the scene was valid (R111). -/
def Ev.recall (e : Ev) (s : Fin 128) : Bool × Ev :=
  if (e.s.sx.scenes[s.val]).valid then (true, e.recallValid s)
  else (false, e.notice .sceneUndefined s.val 0)

/-- A SCENE payload, with the checks of R9: N is 1 and the scene 0 to 127. -/
def Ev.sceneFrame (e : Ev) (payload : List Byte) : Ev :=
  if h : payload.length = 1 ∧ (byteAt payload 0).toNat < 128 then
    (e.recall ⟨(byteAt payload 0).toNat, h.2⟩).2
  else e

/-- The due event of the head entry (R118). -/
def Ev.dueEntry (e : Ev) (d : Delayed) : Ev :=
  ((e.onScenes fun x => { x with delayed := x.delayed.tail }).applyAction d.load d.level d.fade).onScenes
    SceneExpander.freeEmpty

/-! ### Writes (R107 to R109) -/

/-- A valid record breaks the bounds of R107. -/
def SceneRec.bad (r : SceneRec) : Bool :=
  r.valid && !(1 ≤ r.count && r.count ≤ 32 && r.first < 1024 && r.first + r.count ≤ 1024)

/-- A WRITE of SCENE, with the end of the scene's slot (R107, R109). -/
def Ev.writeScene (e : Ev) (s : Fin 128) (r : SceneRec) : Status × Ev :=
  if r.bad then (.badValue, e)
  else
    let e1 := e.onScenes fun x => { x with scenes := upd x.scenes s fun _ => r }
    (.ok, match e.s.sx.slotOf s with
      | none => e1
      | some i =>
        (e1.onScenes fun x => ({ x.dropSlot i with slots := upd x.slots i fun _ => none } :
            SceneExpander).freeEmpty).notice .sceneReplaced s.val 0)

/-- An index lies in the range of a valid scene (R108 step 1). -/
def SceneExpander.covers (x : SceneExpander) (i : Nat) : Bool :=
  x.scenes.toList.any fun r => r.valid && r.first ≤ i && i < r.first + r.count

/-- The clamping of step 3 of R108. -/
def ActionRec.clamp (a : ActionRec) : ActionRec := { a with level := min a.level 1000 }

/-- The actions of a run stored from an index on. -/
def storeActions (v : Vector ActionRec 1024) (first : Nat) : List ActionRec → Vector ActionRec 1024
  | [] => v
  | a :: rest => storeActions (if h : first < 1024 then v.set first a h else v) (first + 1) rest

/-- A WRITE of ACTION, judged over the whole run (R108). -/
def Ev.writeAction (e : Ev) (first : Nat) (run : List ActionRec) : Status × Ev :=
  if (List.range run.length).any fun k => e.s.sx.covers (first + k) then (.inUse, e)
  else if run.any fun a => 95 < a.load then (.badValue, e)
  else
    (if run.map ActionRec.clamp = run then .ok else .okClamped,
      e.onScenes fun x => { x with actions := storeActions x.actions first (run.map ActionRec.clamp) })

/-- The Scene Expander after RESTART (R122). -/
def SceneExpander.restarted (x : SceneExpander) : SceneExpander :=
  { x with slots := .replicate 4 none, nextRecall := 1, delayed := [] }

end Sys2Proof.Machine
end

