-- ==== Sys2Proof/Machine/Management.lean ====
section
/-! DEFINITION. Machine/Management.lean: the Management Responder (chapter 10): acceptance, the carrying out of
requests by the blocks that own them, replies, and RESTART. -/

namespace Sys2Proof.Machine

/-! ### Reply data (R14 to R16) -/

/-- The data of IDENTIFY (R16). -/
def identity (zone : Byte) : List Byte :=
  halfBytes Config.vendorCode ++ halfBytes Config.partCode ++
    [Config.revision, zone, 64, 96, 64, 48, 4, 128] ++ bytes2 1024 ++ [48]

/-- The record of a READ (R14). -/
def readData (s : State) : ReadReq → List Byte
  | .route i => encodeRoute s.fe.routes[i.val]
  | .load n => encodeLoad (s.lbu.loads[n.val]).cfg
  | .limit m => encodeLimits s.lbu.limits[m.val]
  | .point k => encodePoint (s.pm.points[k.val]).cfg
  | .condition k => encodeCondition s.ie.conditions[k.val]
  | .channel part c =>
    if part = 0 then encodePart0 (s.chan c).cfg
    else if part = 1 then encodePart1 (s.chan c).cfg
    else if part = 2 then encodePart2 (s.chan c).cfg
    else encodePart3 (s.chan c).cfg
  | .scene n => encodeScene s.sx.scenes[n.val]
  | .action first count =>
    byteOf count :: (List.range count).flatMap fun k => encodeAction (s.sx.action (first + k))
  | .manager i => encodeManager s.mr.managers[i.val]
  | .param => [s.fe.hopBudget.zeroExtend 8]

/-- The data of item LOAD (R15, R105). -/
def Load.statusData (l : Load) : List Byte :=
  [byteOf l.state.code] ++ bytes2 l.granted ++ bytes2 l.committed ++ bytes2 l.requested ++ bytes2 l.demand ++
    [ flagBit l.due 0 ||| flagBit (l.fade != .stopped) 1 |||
        flagBit (match l.fade with | .falling _ => true | .rising _ | .stopped => false) 2,
      l.bound.elim 255 fun c => byteOf c.val, byteOf l.lastFade ]

/-- Code and point of the selector (R15). -/
def Selector.bytes : Selector → List Byte
  | .manual => [0, 0]
  | .fromPoint k => [1, byteOf k.val]

/-- The data of item BRANCH (R15, R105). -/
def Budget.branchData (u : Budget) (b : Fin 4) : List Byte :=
  bytes3 (u.commit b) ++ bytes2 (u.effBranch b) ++ bytes3 u.total ++ bytes2 u.effTotal ++
    [ flagBit u.overBranch[b.val] 0 ||| flagBit u.overTotal 1 ||| flagBit u.trip[b.val] 2,
      byteOf u.mode.index.val ] ++ u.selector.bytes

/-- The data of item POOL (R15, R49). -/
def poolData (s : State) : List Byte :=
  [ byteOf s.pool.freeCount, byteOf s.tpa.queue.places.length, byteOf s.tpb.queue.places.length,
    byteOf s.zp.queue.places.length ]

/-- The data of item PORT (R15, R33). -/
def Counters.data (c : Counters) : List Byte :=
  bytes2 c.good ++ bytes2 c.badCheck ++ bytes2 c.longOrAborted ++ bytes2 c.noBuffer ++ bytes2 c.transmitted ++
    bytes2 c.txFailed

def State.counters (s : State) : Port → Counters
  | .a => s.tpa.counters
  | .b => s.tpb.counters
  | .zone => s.zp.counters

/-- The six counters of a port set to 0 (R33). -/
def State.clearCounters (s : State) : Port → State
  | .a => s.modTrunk .a fun p => { p with counters := .zero }
  | .b => s.modTrunk .b fun p => { p with counters := .zero }
  | .zone => s.modZone fun z => { z with counters := .zero }

/-- The data of a READ_STATUS (R15, R165). -/
def statusData (s : State) : StatusItem → List Byte
  | .channel c => (s.chan c).statusData
  | .branch b => s.lbu.branchData b
  | .load n => (s.lbu.loads[n.val]).statusData
  | .pool => poolData s
  | .port p => (s.counters p).data

/-- The clear flag acts on item PORT only (R15). -/
def State.clearOnRead (s : State) (item : StatusItem) (clear : Bool) : State :=
  match item, clear with
  | .port p, true => s.clearCounters p
  | _, _ => s

/-! ### RESTART (R34, R48, R66, R77, R106, R122, R150, R158, R167, R170) -/

/-- The Load Budget Unit after RESTART: configuration, bound channels, limits, mode and trip levels kept. -/
def Budget.restarted (u : Budget) : Budget :=
  { u with loads := mapAll u.loads fun l => { Load.zero with cfg := l.cfg, bound := l.bound }
           overBranch := .replicate 4 false, overTotal := false, admission := [], shedList := [], nextShed := 0 }

/-- All 48 buffers on the free list, no rise reported (R48). -/
def Pool.restarted (p : Pool) : Pool :=
  { bufs := mapAll p.bufs fun x => { x with free := true, refs := 0 }, riseLbu := 0, riseMr := 0 }

/-- Every block at its RESTART values, with the pending reply MR has recorded. -/
def State.restarted (s : State) (r : PendingReply) : State :=
  { s with
    tpa := .atReset s.now, tpb := .atReset s.now
    zp := .atReset s.zp.lineDominant s.zp.lineIdle s.now
    pool := s.pool.restarted
    fe := { s.fe with hold := [] }
    pm := s.pm.restarted
    lbu := s.lbu.restarted
    sx := s.sx.restarted
    ds := { s.ds with channels := mapAll s.ds.channels Channel.restarted }
    mr := { s.mr with notices := [], headMark := 0, waitUp := false, pendingReply := some r } }

/-! ### Tables MR and FE own -/

/-- A WRITE of ROUTE that passed decoding stores its record (R55). -/
def Ev.writeRoute (e : Ev) (i : Fin 64) (r : Route) : Status × Ev :=
  (.ok, e.onState fun s => { s with fe := { s.fe with routes := upd s.fe.routes i fun _ => r } })

/-- A WRITE of MANAGERS (R160). -/
def Ev.writeManager (e : Ev) (i : Fin 2) (m : Manager) : Status × Ev :=
  (.ok, e.onState fun s => { s with mr := { s.mr with managers := upd s.mr.managers i fun _ => m } })

/-- A WRITE of PARAM (R63). -/
def Ev.writeParam (e : Ev) (h : BitVec 4) : Status × Ev :=
  (.ok, e.onState fun s => { s with fe := { s.fe with hopBudget := h } })

/-- ASSIGN_ZONE, with LBU's level try at the assignment (R102, R163). -/
def Ev.assignZone (e : Ev) (z : Byte) : Status × Ev :=
  if e.s.mr.ownZone = 0 then
    (.ok, { e.onState (fun s => { s with mr := { s.mr with ownZone := z } }) with dueSet := true })
  else if e.s.mr.ownZone = z then (.ok, e)
  else (.alreadySet, e)

/-! ### Carrying out (R164 to R167) -/

/-- A WRITE is judged and stored by the block that owns the table (R164). -/
def Ev.carryWrite (e : Ev) : WriteReq → Status × Ev
  | .route i r => e.writeRoute i r
  | .load n r => e.writeLoad n r
  | .limit m r => (.ok, e.writeLimits m r)
  | .point k r => e.writePoint k r
  | .condition k r => e.writeCondition k r
  | .part0 c r => e.writePart0 c r
  | .part1 c r => e.writePart1 c r
  | .part2 c r => e.writePart2 c r
  | .part3 c a b => e.writePart3 c a b
  | .scene n r => e.writeScene n r
  | .action first r => e.writeAction first r
  | .manager i r => e.writeManager i r
  | .param h => e.writeParam h

/-- RECALL_SCENE (R166). -/
def Ev.recallRequest (e : Ev) (n : Fin 128) : Status × Ev :=
  let (valid, e1) := e.recall n
  (if valid then .ok else .notState, e1)

/-- Status and data of a request's reply, and the event after it; RESTART is apart. -/
structure Carried where
  status : Status
  data : List Byte
  ev : Ev

/-- A request without data. -/
def Carried.of (r : Status × Ev) : Carried := ⟨r.1, [], r.2⟩

/-- A request that passed decoding is carried out (R164 to R166). -/
def Ev.carryOut (e : Ev) : Request → Carried
  | .identify => ⟨.ok, identity e.s.mr.ownZone, e⟩
  | .assignZone z => .of (e.assignZone z)
  | .write w => .of (e.carryWrite w)
  | .read r => ⟨.ok, readData e.s r, e⟩
  | .readStatus item clear => ⟨.ok, statusData e.s item, e.onState fun s => s.clearOnRead item clear⟩
  | .setManual m => .of (.ok, e.selectManual m)
  | .setFromPoint k => .of (.ok, e.selectPoint k)
  | .recall n => .of (e.recallRequest n)
  | .clear c => .of (e.clearRequest c)
  | .resetSegment => .of (.ok, e.segmentReset)
  | .restart => .of (.ok, e)

/-! ### Acceptance and reply (R159, R161, R167) -/

/-- The manager test (R159, R160). -/
def Management.accepts (m : Management) (o : Origin) : Bool :=
  !(m.managers.toList.any Manager.valid) || m.managers.toList.any fun x => x.valid && x.origin == o

/-- The reply is offered from the buffer held for it, or the buffer returned; then a notice try (R161). -/
def Ev.reply (e : Ev) (src : Source) (b : Fin 48) (code tag : Byte) (st : Status) (data : List Byte) : Ev :=
  let s := (e.s.sendReply src.port b src.origin code tag st data).getD (e.s.giveBack b)
  { e with s := s.noticeTry, noticed := false }

/-- RESTART: every block restarts, and MR tries to send the reply (R167). -/
def Ev.restart (e : Ev) (src : Source) (code tag : Byte) : Ev :=
  let s := (e.s.restarted ⟨code, tag, src.origin, src.port⟩).replyTry
  { s.event with restarted := true }

/-- A decoded request with its reply buffer held. -/
def Ev.answer (e : Ev) (src : Source) (b : Fin 48) (code tag : Byte) : Decoded → Ev
  | .discard => e.onState fun s => s.giveBack b
  | .bad st => e.reply src b code tag st []
  | .good .restart => e.restart src code tag
  | .good r =>
    let k := e.carryOut r
    k.ev.settle.reply src b code tag k.status k.data

/-- MR takes a MGMT_REQ (R159). -/
def Ev.request (e : Ev) (src : Source) (payload : List Byte) : Ev :=
  if e.s.mr.accepts src.origin then
    match e.s.takeBuffer Config.originMin with
    | none => e
    | some (b, s1) =>
      { e with s := s1 }.answer src b (byteAt payload 0) (byteAt payload 1) (decodeRequest payload)
  else e

end Sys2Proof.Machine
end

