-- ==== Sys2Proof/Machine/Forwarding.lean ====
section
/-! DEFINITION. Machine/Forwarding.lean: the Forwarding Engine's classification (chapter 4). -/

namespace Sys2Proof.Machine

/-! ### Route Table (R56 to R58) -/

/-- The ingress side fits (R56). -/
def Ingress.fits (g : Ingress) (p : Port) : Bool :=
  match g with
  | .any => true
  | .trunk => p != .zone
  | .zone => p == .zone

/-- The destination value fits, by the type the frame carries (R56). -/
def valueFits (v : Byte × Byte) (f : List Byte) : Bool :=
  match frameType f with
  | .device | .group => byteAt f 1 == v.1 && byteAt f 2 == v.2
  | .zoneAll => byteAt f 1 == v.1
  | .shipAll => false

/-- The entry matches the frame (R56). -/
def Route.fits (r : Route) (p : Port) (f : List Byte) : Bool :=
  r.valid && r.ingress.fits p && r.kind.all (· == frameKind f) && r.dtype.all (· == frameType f) &&
    r.value.all (valueFits · f) && r.originZone.all (· == byteAt f 3)

/-- The default action of an assigned Z24 (R58). -/
def defaultAction (own : Byte) (p : Port) (f : List Byte) : Action :=
  if p = .zone then if addressedToZone f own then .drop else .uplink
  else if addressedToZone f own then .deliver
  else if frameType f = .shipAll then .copy
  else .pass

/-- The action and rewrite that decide a frame: the first matching entry, or the default (R57, R58). -/
def routeOf (s : State) (p : Port) (f : List Byte) : Action × Option Byte :=
  match s.fe.routes.toList.find? fun r => r.fits p f with
  | some r => (r.action, r.rewrite)
  | none => (defaultAction s.mr.ownZone p f, none)

/-! ### Places (R59 to R62) -/

/-- Trunk places of PASS, with the hop budget each carries; a budget of 0 is not offered (R59, R60). -/
def passPlaces (p : Port) (hop initial : BitVec 4) : List (Trunk × BitVec 4) :=
  match p with
  | .a => if hop - 1 = 0 then [] else [(.b, hop - 1)]
  | .b => if hop - 1 = 0 then [] else [(.a, hop - 1)]
  | .zone => [(.a, initial), (.b, initial)]

/-- Trunk places an action offers (R59, R60). -/
def trunkPlaces (a : Action) (p : Port) (hop initial : BitVec 4) : List (Trunk × BitVec 4) :=
  match a with
  | .pass | .copy => passPlaces p hop initial
  | .uplink => [(.a, initial), (.b, initial)]
  | .deliver | .drop => []

/-- The action offers a zone place (R59). -/
def Action.zonePlace : Action → Bool
  | .deliver | .copy => true
  | .pass | .uplink | .drop => false

/-- The trunk offers of a classification; a refused place is not offered again (R62). -/
def State.offerTrunks (s : State) (b : Fin 48) (cls : Fin 4) : List (Trunk × BitVec 4) → State
  | [] => s
  | (t, hop) :: rest => ((s.offerTrunk t b cls hop).getD s).offerTrunks b cls rest

/-- The offers of an action for a held frame (R59 to R62). -/
def State.place (s : State) (h : Held) (a : Action) (rewrite : Option Byte) : State :=
  let f := (s.buf h.buf).bytes
  let s1 := s.offerTrunks h.buf (frameClass f) (trunkPlaces a h.port (frameHop f) s.fe.hopBudget)
  if a.zonePlace then
    (s1.offerZone h.buf (frameClass f) (frameHop f) (if frameType f = .group then rewrite else none)).getD s1
  else s1

/-! ### Classification (R51 to R54, R64) -/

/-- The hand-off of a frame for device 0 to the block that owns its kind (R54). -/
def Ev.consume (e : Ev) (kind : Fin 16) (src : Source) (payload : List Byte) : Ev :=
  if kind = kindLevelReq then e.levelReqFrame payload
  else if kind = kindScene then e.sceneFrame payload
  else if kind = kindMotion then e.motionFrame src.origin payload
  else if kind = kindDrive then e.driveFrame src.origin payload
  else if kind = kindMgmtReq then e.request src payload
  else e

/-- What FE knows of a held frame. -/
def heldSource (h : Held) (f : List Byte) : Source := ⟨h.port, frameHop f, frameOrigin f⟩

/-- Steps 2 to 4 of R51 for a frame that step 1 leaves. A snooped frame's effects are settled before the frame
is routed (log 6). -/
def Ev.classifyAssigned (e : Ev) (h : Held) (f : List Byte) : Ev :=
  let e1 := if frameKind f = kindState then (e.snoop (frameOrigin f) (framePayload f)).settle else e
  if addressedToDevice0 f e.s.mr.ownZone then
    e1.consume (frameKind f) (heldSource h f) (framePayload f)
  else
    e1.onState fun s =>
      let (a, rewrite) := routeOf s h.port f
      s.place h a rewrite

/-- Steps 2 and 3 of R64. -/
def Ev.classifyUnassigned (e : Ev) (h : Held) (f : List Byte) : Ev :=
  if frameKind f = kindMgmtReq ∧ addressedToDevice0 f 0 = true then
    e.request (heldSource h f) (framePayload f)
  else e.onState fun s => s.place h (if h.port = .zone then .drop else .pass) none

/-- A frame is classified (R51, R52, R64). -/
def Ev.classify (e : Ev) (h : Held) : Ev :=
  let f := (e.s.buf h.buf).bytes
  if discarded e.s (heldSource h f) then e
  else if e.s.assigned then e.classifyAssigned h f
  else e.classifyUnassigned h f

/-- The classification event of the head of the hold list: the frame leaves the list, and FE's hold is released
at the end, but for a RESTART, with which the hold has ended (R40, R50, R167). -/
def State.classifyHead (s : State) : State :=
  match s.fe.hold with
  | [] => s
  | h :: rest =>
    let e := ({ s with fe := { s.fe with hold := rest } }.event).classify h
    if e.restarted then e.close else e.close.dropRef h.buf

/-! ### A hand-off by itself (log 3) -/

/-- A frame for device 0 of the own zone reaches the block that owns its kind, unless FE discards it or the Z24
is unassigned (R52, R54, R64). -/
def State.handOff (s : State) (kind : Fin 16) (src : Source) (payload : List Byte) : State :=
  if discarded s src then s
  else if s.assigned then (s.event.consume kind src payload).close
  else if kind = kindMgmtReq then (s.event.request src payload).close
  else s

end Sys2Proof.Machine
end

