-- ==== Sys2Proof/Machine/DriveSteps.lean ====
section
/-! DEFINITION. Machine/DriveSteps.lean: the meanings of the commands at the Drive Supervisor and the Interlock
Evaluator. -/

namespace Sys2Proof.Machine

/-! ### Shared -/

/-- A MOTION frame with a channel byte and a verb reaches DS (R10, R54, R132). -/
def State.motionFrame (s : State) (src : Source) (channel : Byte) (v : Verb) : State :=
  s.handOff kindMotion src [channel, v.code]

/-- A DRIVE frame with an indication reaches DS (R10, R54, R144). -/
def State.indicationFrame (s : State) (src : Source) (i : Indication) : State :=
  s.handOff kindDrive src [i.code]

/-- A timer that runs expires at its time (log 2); a stopped one does not. -/
def State.expire (s : State) (timer : Option Nat) (f : Ev → Ev) : State :=
  match timer with
  | none => s
  | some d => (f (s.reach d).event).close

/-! ### MOTION verbs -/

/-- ARM_A (R133, R134). -/
def execArmA (src : Source) (channel : Byte) (s : State) : Out := .next (s.motionFrame src channel .armA)

/-- ARM_B (R133, R134). -/
def execArmB (src : Source) (channel : Byte) (s : State) : Out := .next (s.motionFrame src channel .armB)

/-- RUN_CONTINUE (R135, R136). -/
def execRunContinue (src : Source) (channel : Byte) (s : State) : Out := .next (s.motionFrame src channel .runContinue)

/-- RUN_FINISH (R135, R136). -/
def execRunFinish (src : Source) (channel : Byte) (s : State) : Out := .next (s.motionFrame src channel .runFinish)

/-- STOP (R138). -/
def execStop (src : Source) (channel : Byte) (s : State) : Out := .next (s.motionFrame src channel .stop)

/-- CANCEL (R138). -/
def execCancel (src : Source) (channel : Byte) (s : State) : Out := .next (s.motionFrame src channel .cancel)

/-- JOG_A (R137). -/
def execJogA (src : Source) (channel : Byte) (s : State) : Out := .next (s.motionFrame src channel .jogA)

/-- JOG_B (R137). -/
def execJogB (src : Source) (channel : Byte) (s : State) : Out := .next (s.motionFrame src channel .jogB)

/-- MOTION_CLEAR (R139). -/
def execMotionClear (src : Source) (channel : Byte) (s : State) : Out := .next (s.motionFrame src channel .clear)

/-! ### Indications -/

/-- MOVING (R144, R145). -/
def execMoving (src : Source) (s : State) : Out := .next (s.indicationFrame src .moving)

/-- AT_REST (R144, R145). -/
def execAtRest (src : Source) (s : State) : Out := .next (s.indicationFrame src .atRest)

/-- AT_LIMIT (R144, R145). -/
def execAtLimit (src : Source) (s : State) : Out := .next (s.indicationFrame src .atLimit)

/-- STALLED (R144, R145). -/
def execStalled (src : Source) (s : State) : Out := .next (s.indicationFrame src .stalled)

/-- FAULTED (R144, R145). -/
def execFaulted (src : Source) (s : State) : Out := .next (s.indicationFrame src .faulted)

/-! ### Timers -/

/-- ARM_TIMER_EXPIRY (R134, R146). -/
def execArmTimerExpiry (c : Fin 4) (s : State) : Out :=
  .next (s.expire (s.chan c).timers.arm fun e => e.armEnds c)

/-- GAP_TIMER_EXPIRY (R127, R146). -/
def execGapTimerExpiry (c : Fin 4) (s : State) : Out :=
  .next (s.expire (s.chan c).timers.gap fun e => e.gapEnds c)

/-- START_TIMER_EXPIRY (R146). -/
def execStartTimerExpiry (c : Fin 4) (s : State) : Out :=
  .next (s.expire (s.chan c).timers.start fun e => e.startEnds c)

/-- STOP_TIMER_EXPIRY (R146). -/
def execStopTimerExpiry (c : Fin 4) (s : State) : Out :=
  .next (s.expire (s.chan c).timers.stop fun e => e.stopEnds c)

/-- TRAVEL_TIMER_EXPIRY (R146). -/
def execTravelTimerExpiry (c : Fin 4) (s : State) : Out :=
  .next (s.expire (s.chan c).timers.travel fun e => e.travelEnds c)

/-- JOG_TIMER_EXPIRY (R146). -/
def execJogTimerExpiry (c : Fin 4) (s : State) : Out :=
  .next (s.expire (s.chan c).timers.jog fun e => e.jogEnds c)

/-! ### Lines -/

/-- ESTOP_LOOP_OPEN (R35, R147); a level that is no change is no event (log 23). -/
def execEstopLoopOpen (s : State) : Out := .next (if s.ds.loopOpen then s else s.event.loopOpens.close)

/-- ESTOP_LOOP_CLOSE (R35, R147). -/
def execEstopLoopClose (s : State) : Out := .next { s with ds := { s.ds with loopOpen := false } }

/-- DRIVE_TRIP_ASSERTED (R35, R147); a level that is no change is no event (log 23). -/
def execDriveTripAsserted (c : Fin 4) (s : State) : Out :=
  .next (if s.ds.trip[c.val] then s else (s.event.tripAsserts c).close)

/-- DRIVE_TRIP_RELEASED (R35, R147). -/
def execDriveTripReleased (c : Fin 4) (s : State) : Out :=
  .next { s with ds := { s.ds with trip := upd s.ds.trip c fun _ => false } }

/-- FRESHNESS_EXPIRY, at the moment the age of the condition's point first exceeds the limit (R155). -/
def execFreshnessExpiry (k : Fin 48) (s : State) : Out :=
  .next (s.expire (freshnessDue s k) fun e => e.conditionStale k)

end Sys2Proof.Machine
end

