-- ==== Sys2Proof/Machine/LoadSteps.lean ====
section
/-! DEFINITION. Machine/LoadSteps.lean: the meanings of the commands at the Load Budget Unit and the Scene
Expander. -/

namespace Sys2Proof.Machine

/-! ### Shared -/

/-- The fade of a load expires at its time (R96). -/
def State.fadeExpires (s : State) (n : Fin 96) : State :=
  match (s.lbu.loads[n.val]).fade with
  | .stopped => s
  | .rising d | .falling d => (((s.reach d).event).fadeEnds n).close

/-- The inrush of a load expires at its time (R99). -/
def State.inrushExpires (s : State) (n : Fin 96) : State :=
  match (s.lbu.loads[n.val]).inrushTimer with
  | .stopped | .waiting => s
  | .running d => (((s.reach d).event).inrushEnds n).close

/-- The loads that a branch trip sheds: on the branch, drawing current, not bound (R90 step 2). -/
def Budget.tripVictims (u : Budget) (b : Fin 4) : List (Fin 96) :=
  (List.finRange 96).filter fun n =>
    let l := u.loads[n.val]
    l.cfg.branch == b && l.drawing && l.bound.isNone

/-- A branch trip input is asserted (R90). The release of a channel's load makes the event a release event
(R101), and the end of the event clears the flags and makes the walk. -/
def Ev.branchTrips (e : Ev) (b : Fin 4) : Ev :=
  let e1 := e.onBudget fun u => { u with trip := upd u.trip b fun _ => true }
  (e1.shedAll none (e1.s.lbu.tripVictims b)).branchTripChannels b

/-- A branch trip input is released: a release event (R91). -/
def Ev.branchRecovers (e : Ev) (b : Fin 4) : Ev :=
  { e.onBudget (fun u => { u with trip := upd u.trip b fun _ => false }) with released := true }

/-- The head of the Delayed Action List falls due (R118). -/
def State.entryDue (s : State) : State :=
  match s.sx.delayed with
  | [] => s
  | d :: _ => (((s.reach d.due).event).dueEntry d).close

/-! ### Meanings -/

/-- LEVEL_REQ: the hand-off of such a frame (R54, R92 to R99). -/
def execLevelReq (src : Source) (payload : List Byte) (s : State) : Out :=
  .next (s.handOff kindLevelReq src payload)

/-- FADE_END (R96). -/
def execFadeEnd (n : Fin 96) (s : State) : Out := .next (s.fadeExpires n)

/-- INRUSH_END (R99). -/
def execInrushEnd (n : Fin 96) (s : State) : Out := .next (s.inrushExpires n)

/-- BRANCH_TRIP_ASSERTED (R35, R90); a level that is no change is no event (log 23). -/
def execBranchTripAsserted (b : Fin 4) (s : State) : Out :=
  .next (if s.lbu.trip[b.val] then s else (s.event.branchTrips b).close)

/-- BRANCH_TRIP_RELEASED (R35, R91). -/
def execBranchTripReleased (b : Fin 4) (s : State) : Out :=
  .next (if s.lbu.trip[b.val] then (s.event.branchRecovers b).close else s)

/-- SCENE: the hand-off of such a frame (R54, R111 to R116). -/
def execScene (src : Source) (payload : List Byte) (s : State) : Out := .next (s.handOff kindScene src payload)

/-- DUE_EVENT (R118). -/
def execDueEvent (s : State) : Out := .next s.entryDue

end Sys2Proof.Machine
end

