-- ==== Sys2Proof/Machine/PortSteps.lean ====
section
/-! DEFINITION. Machine/PortSteps.lean: the meanings of the commands at the ports, the pool and the Forwarding
Engine. -/

namespace Sys2Proof.Machine

/-- POWER_ON_RESET: every block at its power-on values, with the levels found on the input lines (R34, R48, R66,
R77, R106, R122, R150, R158, R162, R170). The clock and the waiting commands are the model's own and go on. -/
def execPowerOnReset (pins : Pins) (s : State) : Out := .next (State.powerOn pins s.now s.pending)

/-- TRUNK_FRAME_START (R17, R20, R21). -/
def execTrunkFrameStart (t : Trunk) (s : State) (cut : List Byte := []) : Out := .next (s.startTrunk t cut)

/-- TRUNK_FRAME_END (R17, R18, R21). -/
def execTrunkFrameEnd (t : Trunk) (bytes : List Byte) (s : State) : Out := .next (s.endTrunk t bytes)

/-- SILENCE_TIMER_EXPIRY (R18, R19). -/
def execSilenceTimerExpiry (t : Trunk) (s : State) : Out := .next (s.silenceEnds t)

/-- BEAT_TIMER_EXPIRY (R23). -/
def execBeatTimerExpiry (t : Trunk) (s : State) : Out := .next (s.beatEnds t)

/-- TRUNK_TRANSMIT_COMPLETE (R22, R23). -/
def execTrunkTransmitComplete (t : Trunk) (s : State) : Out := .next (s.trunkCompletes t)

/-- ZONE_FRAME_START (R24, R25). -/
def execZoneFrameStart (s : State) : Out := .next s.startZone

/-- ZONE_FRAME_END (R24, R25). -/
def execZoneFrameEnd (bytes : List Byte) (s : State) : Out := .next (s.endZone bytes)

/-- ZONE_LINE_IDLE (R24, R25, R26). -/
def execZoneLineIdle (s : State) (cut : List Byte := []) : Out := .next (s.idleZone cut)

/-- ARBITRATION_LOST (R27). -/
def execArbitrationLost (s : State) : Out := .next s.loseArbitration

/-- BIT_ERROR (R28). -/
def execBitError (s : State) : Out := .next s.bitError

/-- ZONE_ATTEMPT_COMPLETE (R29). -/
def execZoneAttemptComplete (s : State) : Out := .next s.attemptCompletes

/-- LINE_GOES_DOMINANT (R30, R31). -/
def execLineGoesDominant (s : State) : Out := .next (s.modZone fun z => z.goesDominant s.now)

/-- LINE_GOES_RECESSIVE (R30, R31). -/
def execLineGoesRecessive (s : State) : Out := .next (s.modZone fun z => z.goesRecessive s.now)

/-- STUCK_TIMER_EXPIRY (R30). -/
def execStuckTimerExpiry (s : State) : Out := .next s.stuckEnds

/-- RECOVERY_TIMER_EXPIRY (R31, R32). -/
def execRecoveryTimerExpiry (s : State) : Out := .next s.recoveryEnds

/-- LBU_FREE_COUNT_RISE (R41, R102). -/
def execLbuFreeCountRise (s : State) : Out := .next s.lbuTakesRise

/-- MR_FREE_COUNT_RISE (R41, R167, R169). -/
def execMrFreeCountRise (s : State) : Out := .next s.mrTakesRise

/-- CLASSIFY_FRAME (R50 to R65). -/
def execClassifyFrame (s : State) : Out := .next s.classifyHead

end Sys2Proof.Machine
end

