-- ==== Sys2Proof/Machine/RequestSteps.lean ====
section
/-! DEFINITION. Machine/RequestSteps.lean: the meanings of the management requests. Each is the hand-off of a MGMT_REQ
with the payload of R13. -/

namespace Sys2Proof.Machine

/-- A MGMT_REQ reaches MR (R13, R54, R64, R159). -/
def State.requestFrame (s : State) (src : Source) (code tag : Byte) (args : List Byte) : State :=
  s.handOff kindMgmtReq src (requestPayload code tag args)

/-- The index of a CHANNEL record: part, then channel (R14). -/
def channelIndex (part channel : Byte) : Half := part ++ channel

/-- IDENTIFY (R16, R165). -/
def execIdentify (src : Source) (tag : Byte) (s : State) : Out := .next (s.requestFrame src 1 tag [])

/-- ASSIGN_ZONE (R163). -/
def execAssignZone (src : Source) (tag zone : Byte) (s : State) : Out := .next (s.requestFrame src 2 tag [zone])

/-- WRITE_ROUTE (R55, R164). -/
def execWriteRoute (src : Source) (tag : Byte) (index : Half) (record : List Byte) (s : State) : Out :=
  .next (s.requestFrame src 3 tag (tableArgs 0 index record))

/-- WRITE_LOAD (R79, R164). -/
def execWriteLoad (src : Source) (tag : Byte) (index : Half) (record : List Byte) (s : State) : Out :=
  .next (s.requestFrame src 3 tag (tableArgs 1 index record))

/-- WRITE_LIMIT (R86, R87, R164). -/
def execWriteLimit (src : Source) (tag : Byte) (index : Half) (record : List Byte) (s : State) : Out :=
  .next (s.requestFrame src 3 tag (tableArgs 2 index record))

/-- WRITE_POINT (R68, R69, R164). -/
def execWritePoint (src : Source) (tag : Byte) (index : Half) (record : List Byte) (s : State) : Out :=
  .next (s.requestFrame src 3 tag (tableArgs 3 index record))

/-- WRITE_CONDITION (R151, R164). -/
def execWriteCondition (src : Source) (tag : Byte) (index : Half) (record : List Byte) (s : State) : Out :=
  .next (s.requestFrame src 3 tag (tableArgs 4 index record))

/-- WRITE_CHANNEL_PART0 (R124, R164). -/
def execWriteChannelPart0 (src : Source) (tag channel : Byte) (record : List Byte) (s : State) : Out :=
  .next (s.requestFrame src 3 tag (tableArgs 5 (channelIndex 0 channel) record))

/-- WRITE_CHANNEL_PART1 (R125, R164). -/
def execWriteChannelPart1 (src : Source) (tag channel : Byte) (record : List Byte) (s : State) : Out :=
  .next (s.requestFrame src 3 tag (tableArgs 5 (channelIndex 1 channel) record))

/-- WRITE_CHANNEL_PART2 (R125, R164). -/
def execWriteChannelPart2 (src : Source) (tag channel : Byte) (record : List Byte) (s : State) : Out :=
  .next (s.requestFrame src 3 tag (tableArgs 5 (channelIndex 2 channel) record))

/-- WRITE_CHANNEL_PART3 (R125, R164). -/
def execWriteChannelPart3 (src : Source) (tag channel : Byte) (record : List Byte) (s : State) : Out :=
  .next (s.requestFrame src 3 tag (tableArgs 5 (channelIndex 3 channel) record))

/-- WRITE_SCENE (R107, R109, R164). -/
def execWriteScene (src : Source) (tag : Byte) (index : Half) (record : List Byte) (s : State) : Out :=
  .next (s.requestFrame src 3 tag (tableArgs 6 index record))

/-- WRITE_ACTION (R108, R164). -/
def execWriteAction (src : Source) (tag : Byte) (index : Half) (record : List Byte) (s : State) : Out :=
  .next (s.requestFrame src 3 tag (tableArgs 7 index record))

/-- WRITE_MANAGERS (R160, R164). -/
def execWriteManagers (src : Source) (tag : Byte) (index : Half) (record : List Byte) (s : State) : Out :=
  .next (s.requestFrame src 3 tag (tableArgs 8 index record))

/-- WRITE_PARAM (R63, R164). -/
def execWriteParam (src : Source) (tag : Byte) (index : Half) (record : List Byte) (s : State) : Out :=
  .next (s.requestFrame src 3 tag (tableArgs 9 index record))

/-- READ (R14, R164). -/
def execRead (src : Source) (tag table : Byte) (index : Half) (more : List Byte) (s : State) : Out :=
  .next (s.requestFrame src 4 tag (tableArgs table index more))

/-- READ_STATUS_CHANNEL (R15, R149, R165). -/
def execReadStatusChannel (src : Source) (tag number flag : Byte) (s : State) : Out :=
  .next (s.requestFrame src 5 tag [0, number, flag])

/-- READ_STATUS_BRANCH (R15, R105, R165). -/
def execReadStatusBranch (src : Source) (tag number flag : Byte) (s : State) : Out :=
  .next (s.requestFrame src 5 tag [1, number, flag])

/-- READ_STATUS_LOAD (R15, R105, R165). -/
def execReadStatusLoad (src : Source) (tag number flag : Byte) (s : State) : Out :=
  .next (s.requestFrame src 5 tag [2, number, flag])

/-- READ_STATUS_POOL (R15, R49, R165). -/
def execReadStatusPool (src : Source) (tag number flag : Byte) (s : State) : Out :=
  .next (s.requestFrame src 5 tag [3, number, flag])

/-- READ_STATUS_PORT (R15, R33, R165). -/
def execReadStatusPort (src : Source) (tag number flag : Byte) (s : State) : Out :=
  .next (s.requestFrame src 5 tag [4, number, flag])

/-- SET_MODE_MANUAL (R87, R166). -/
def execSetModeManual (src : Source) (tag selector point : Byte) (s : State) : Out :=
  .next (s.requestFrame src 6 tag [selector, point])

/-- SET_MODE_FROM_POINT (R76, R87, R166). -/
def execSetModeFromPoint (src : Source) (tag point : Byte) (s : State) : Out :=
  .next (s.requestFrame src 6 tag [4, point])

/-- RECALL_SCENE (R111, R166). -/
def execRecallScene (src : Source) (tag scene : Byte) (s : State) : Out := .next (s.requestFrame src 7 tag [scene])

/-- CLEAR (R139, R166). -/
def execClear (src : Source) (tag channel : Byte) (s : State) : Out := .next (s.requestFrame src 8 tag [channel])

/-- RESET_SEGMENT (R32, R167). -/
def execResetSegment (src : Source) (tag : Byte) (s : State) : Out := .next (s.requestFrame src 9 tag [])

/-- RESTART (R167). -/
def execRestart (src : Source) (tag : Byte) (s : State) : Out := .next (s.requestFrame src 10 tag [])

end Sys2Proof.Machine
end

