-- ==== Sys2Proof/Machine/Dispatch.lean ====
section
/-! DEFINITION. Machine/Dispatch.lean: one arm per command, each a call of its meaning. -/

namespace Sys2Proof.Machine

def exec (i : Instr) (s : State) : Host.Outcome State Fault Refusal :=
  match i with
  | .powerOnReset pins => Sys2Proof.Machine.execPowerOnReset pins s
  | .trunkFrameStart t cut => Sys2Proof.Machine.execTrunkFrameStart t s cut
  | .trunkFrameEnd t bytes => Sys2Proof.Machine.execTrunkFrameEnd t bytes s
  | .silenceTimerExpiry t => Sys2Proof.Machine.execSilenceTimerExpiry t s
  | .beatTimerExpiry t => Sys2Proof.Machine.execBeatTimerExpiry t s
  | .trunkTransmitComplete t => Sys2Proof.Machine.execTrunkTransmitComplete t s
  | .zoneFrameStart => Sys2Proof.Machine.execZoneFrameStart s
  | .zoneFrameEnd bytes => Sys2Proof.Machine.execZoneFrameEnd bytes s
  | .zoneLineIdle cut => Sys2Proof.Machine.execZoneLineIdle s cut
  | .arbitrationLost => Sys2Proof.Machine.execArbitrationLost s
  | .bitError => Sys2Proof.Machine.execBitError s
  | .zoneAttemptComplete => Sys2Proof.Machine.execZoneAttemptComplete s
  | .lineGoesDominant => Sys2Proof.Machine.execLineGoesDominant s
  | .lineGoesRecessive => Sys2Proof.Machine.execLineGoesRecessive s
  | .stuckTimerExpiry => Sys2Proof.Machine.execStuckTimerExpiry s
  | .recoveryTimerExpiry => Sys2Proof.Machine.execRecoveryTimerExpiry s
  | .lbuFreeCountRise => Sys2Proof.Machine.execLbuFreeCountRise s
  | .mrFreeCountRise => Sys2Proof.Machine.execMrFreeCountRise s
  | .classifyFrame => Sys2Proof.Machine.execClassifyFrame s
  | .levelReq src payload => Sys2Proof.Machine.execLevelReq src payload s
  | .fadeEnd n => Sys2Proof.Machine.execFadeEnd n s
  | .inrushEnd n => Sys2Proof.Machine.execInrushEnd n s
  | .branchTripAsserted b => Sys2Proof.Machine.execBranchTripAsserted b s
  | .branchTripReleased b => Sys2Proof.Machine.execBranchTripReleased b s
  | .scene src payload => Sys2Proof.Machine.execScene src payload s
  | .dueEvent => Sys2Proof.Machine.execDueEvent s
  | .armA src channel => Sys2Proof.Machine.execArmA src channel s
  | .armB src channel => Sys2Proof.Machine.execArmB src channel s
  | .runContinue src channel => Sys2Proof.Machine.execRunContinue src channel s
  | .runFinish src channel => Sys2Proof.Machine.execRunFinish src channel s
  | .stop src channel => Sys2Proof.Machine.execStop src channel s
  | .cancel src channel => Sys2Proof.Machine.execCancel src channel s
  | .jogA src channel => Sys2Proof.Machine.execJogA src channel s
  | .jogB src channel => Sys2Proof.Machine.execJogB src channel s
  | .motionClear src channel => Sys2Proof.Machine.execMotionClear src channel s
  | .moving src => Sys2Proof.Machine.execMoving src s
  | .atRest src => Sys2Proof.Machine.execAtRest src s
  | .atLimit src => Sys2Proof.Machine.execAtLimit src s
  | .stalled src => Sys2Proof.Machine.execStalled src s
  | .faulted src => Sys2Proof.Machine.execFaulted src s
  | .armTimerExpiry c => Sys2Proof.Machine.execArmTimerExpiry c s
  | .gapTimerExpiry c => Sys2Proof.Machine.execGapTimerExpiry c s
  | .startTimerExpiry c => Sys2Proof.Machine.execStartTimerExpiry c s
  | .stopTimerExpiry c => Sys2Proof.Machine.execStopTimerExpiry c s
  | .travelTimerExpiry c => Sys2Proof.Machine.execTravelTimerExpiry c s
  | .jogTimerExpiry c => Sys2Proof.Machine.execJogTimerExpiry c s
  | .estopLoopOpen => Sys2Proof.Machine.execEstopLoopOpen s
  | .estopLoopClose => Sys2Proof.Machine.execEstopLoopClose s
  | .driveTripAsserted c => Sys2Proof.Machine.execDriveTripAsserted c s
  | .driveTripReleased c => Sys2Proof.Machine.execDriveTripReleased c s
  | .freshnessExpiry k => Sys2Proof.Machine.execFreshnessExpiry k s
  | .identify src tag => Sys2Proof.Machine.execIdentify src tag s
  | .assignZone src tag zone => Sys2Proof.Machine.execAssignZone src tag zone s
  | .writeRoute src tag index record => Sys2Proof.Machine.execWriteRoute src tag index record s
  | .writeLoad src tag index record => Sys2Proof.Machine.execWriteLoad src tag index record s
  | .writeLimit src tag index record => Sys2Proof.Machine.execWriteLimit src tag index record s
  | .writePoint src tag index record => Sys2Proof.Machine.execWritePoint src tag index record s
  | .writeCondition src tag index record => Sys2Proof.Machine.execWriteCondition src tag index record s
  | .writeChannelPart0 src tag channel record => Sys2Proof.Machine.execWriteChannelPart0 src tag channel record s
  | .writeChannelPart1 src tag channel record => Sys2Proof.Machine.execWriteChannelPart1 src tag channel record s
  | .writeChannelPart2 src tag channel record => Sys2Proof.Machine.execWriteChannelPart2 src tag channel record s
  | .writeChannelPart3 src tag channel record => Sys2Proof.Machine.execWriteChannelPart3 src tag channel record s
  | .writeScene src tag index record => Sys2Proof.Machine.execWriteScene src tag index record s
  | .writeAction src tag index record => Sys2Proof.Machine.execWriteAction src tag index record s
  | .writeManagers src tag index record => Sys2Proof.Machine.execWriteManagers src tag index record s
  | .writeParam src tag index record => Sys2Proof.Machine.execWriteParam src tag index record s
  | .read src tag table index more => Sys2Proof.Machine.execRead src tag table index more s
  | .readStatusChannel src tag number flag => Sys2Proof.Machine.execReadStatusChannel src tag number flag s
  | .readStatusBranch src tag number flag => Sys2Proof.Machine.execReadStatusBranch src tag number flag s
  | .readStatusLoad src tag number flag => Sys2Proof.Machine.execReadStatusLoad src tag number flag s
  | .readStatusPool src tag number flag => Sys2Proof.Machine.execReadStatusPool src tag number flag s
  | .readStatusPort src tag number flag => Sys2Proof.Machine.execReadStatusPort src tag number flag s
  | .setModeManual src tag selector point => Sys2Proof.Machine.execSetModeManual src tag selector point s
  | .setModeFromPoint src tag point => Sys2Proof.Machine.execSetModeFromPoint src tag point s
  | .recallScene src tag scene => Sys2Proof.Machine.execRecallScene src tag scene s
  | .clear src tag channel => Sys2Proof.Machine.execClear src tag channel s
  | .resetSegment src tag => Sys2Proof.Machine.execResetSegment src tag s
  | .restart src tag => Sys2Proof.Machine.execRestart src tag s

end Sys2Proof.Machine
end

