-- ==== Sys2Proof/Machine/Step.lean ====
section
/-! DEFINITION. Machine/Step.lean: one step of the block: the command at the front of the queue, or a millisecond
of waiting. -/

namespace Sys2Proof.Machine

/-- No command waits: 1 ms passes (log 2). -/
def State.tick (s : State) : State := { s with now := s.now + 1 }

/-- One step: the command at the front of the queue is taken with the queue's rest; on an empty queue the block
waits 1 ms. -/
def step (s : State) : Host.Outcome State Fault Refusal :=
  match s.pending with
  | [] => .next s.tick
  | c :: rest => exec c { s with pending := rest }

/-- The state with the command a word spells put at the front of its queue; the table gives no row a bit, so no
word spells one (log 20). -/
def State.withFetchWord (s : State) (nbits w : Nat) : State :=
  match decodeTableWord nbits w with
  | some c => { s with pending := c :: s.pending }
  | none => s

end Sys2Proof.Machine
end

