-- ==== Sys2Proof/Safety.lean ====
section
/-! DEFINITION. Safety.lean: what counts as a safe state of the Z24, and what the sending of frames may change.
The laws are those the spec says the blocks keep at all times; `Quiet` is the frame that the statements use. -/

namespace Sys2Proof.Machine

/-! ### The frame of a statement -/

/-- A channel as the Zone Port can leave it: as it was, or its command taken (R45, R141). -/
def ChanQuiet (x y : Channel) : Prop := y = x ∨ ∃ k, x.command = some k ∧ y = x.taken k.code

/-- A trunk port but for its transmitter, its beat timer and its queue. -/
def TrunkQuiet (p q : TrunkPort) : Prop := q = { p with tx := q.tx, beat := q.beat, queue := q.queue }

/-- The Zone Port but for its shifter, its attempt and its queue. -/
def ZoneQuiet (p q : ZonePort) : Prop :=
  q = { p with shifter := q.shifter, sending := q.sending, lineIdle := q.lineIdle, queue := q.queue }

/-- Nothing but the sending of frames has gone on from `s` to `t`. -/
structure Quiet (s t : State) : Prop where
  now : t.now = s.now
  pending : t.pending = s.pending
  fe : t.fe = s.fe
  pm : t.pm = s.pm
  sx : t.sx = s.sx
  ie : t.ie = s.ie
  loop : t.ds.loopOpen = s.ds.loopOpen
  trip : t.ds.trip = s.ds.trip
  chan : ∀ c, ChanQuiet (s.chan c) (t.chan c)
  lbu : t.lbu = { s.lbu with loads := t.lbu.loads }
  load : ∀ n : Fin 96, t.lbu.loads[n.val] = { s.lbu.loads[n.val] with due := (t.lbu.loads[n.val]).due }
  mr : t.mr = { s.mr with notices := t.mr.notices, headMark := t.mr.headMark, waitUp := t.mr.waitUp
                          pendingReply := t.mr.pendingReply }
  tpa : TrunkQuiet s.tpa t.tpa
  tpb : TrunkQuiet s.tpb t.tpb
  zp : ZoneQuiet s.zp t.zp

/-- The flags of LBU brought up to date, as every event at LBU leaves them (R89). -/
def State.current (s : State) : State := { s with lbu := s.lbu.clearOver }

/-- A notice joins the Notice Queue (R168). -/
def State.noting (s : State) (cause : Cause) (subject value : Nat) : State :=
  { s with mr := { s.mr with notices := enqueueNotice s.mr.notices ⟨cause, subject, value, false⟩ } }

/-- The zone line is the port's to take: idle, with no reception, no attempt and an empty shifter (R26). -/
def ZonePort.free (z : ZonePort) : Bool := z.lineIdle && z.rx.isNone && !z.sending && z.shifter.isNone

/-- A free line has an empty queue behind it. -/
abbrev ZonePort.ready (z : ZonePort) : Prop := z.free = true → z.queue.places = []

/-- A trunk transmitter at rest, its link UP, has an empty queue behind it. -/
abbrev TrunkPort.ready (p : TrunkPort) : Prop := p.link = .up → p.tx.isSome = true ∨ p.queue.places = []

/-- A place joins an egress queue, with the next entry number (R42, R43). -/
def Queue.joined (q : Queue) (k : PlaceKind) : Queue :=
  { places := insertPlace ⟨k, q.nextEntry⟩ q.places, nextEntry := q.nextEntry + 1 }

/-- A trunk port takes a place for the frame `f` in buffer `b`; a transmitter at rest begins it at once (R22, R43). -/
def TrunkPort.taking (p : TrunkPort) (b : Fin 48) (cls : Fin 4) (hop : BitVec 4) (f : List Byte) : TrunkPort :=
  { p with
    queue := p.queue.joined (.buffer b cls hop none)
    tx := if p.tx.isSome then p.tx else some ⟨.buffer b, lineBytes f hop none⟩
    beat := if p.tx.isSome then p.beat else none }

/-- The Zone Port takes a place for the frame `f` in buffer `b`; on a free line its first attempt begins at once, the place
staying in the queue (R26, R43). -/
def ZonePort.taking (z : ZonePort) (b : Fin 48) (cls : Fin 4) (hop : BitVec 4) (rewrite : Option Byte) (f : List Byte) :
    ZonePort :=
  { z with
    queue := z.queue.joined (.buffer b cls hop rewrite)
    shifter := if z.free then some ⟨.buffer b, lineBytes f hop rewrite, 0⟩ else z.shifter
    sending := z.sending || z.free, lineIdle := z.lineIdle && !z.free }

/-- The DRIVE frame of a command: kind 6, class 0, type DEVICE, from and to the own zone, the code as its payload (R8,
R10). -/
def State.driveBytes (s : State) (device : Byte) (code : DriveCode) : List Byte :=
  let number := match code with
    | .startA => 1
    | .startB => 2
    | .stop => 3
    | .halt => 4
  buildFrame 6 0 .device s.mr.ownZone device s.mr.ownZone s.fe.hopBudget [number]

/-- A DRIVE command in a slot. It replaces the command that a full slot holds, which keeps its place. For an empty slot
the zone queue takes a place behind class 0; FAULTED, it refuses it and the slot stays empty; and on a free line the
command goes to the line at once, a START moving its channel from QUEUED to SENT (R26, R43, R45, R141). -/
def State.commanded (s : State) (c : Fin 4) (code : DriveCode) : State :=
  let x := s.chan c
  let u := s.modChan c fun x => { x with command := some ⟨code, x.cfg.controller⟩ }
  if x.command.isSome then u
  else if s.zp.segment = .faulted then s
  else if s.zp.free then
    { (s.modChan c fun x =>
        { x with command := none
                 phase := if (code = .startA ∨ code = .startB) ∧ x.state = .starting ∧ x.phase = .queued then .sent
                   else x.phase }) with
      zp := { s.zp with
        shifter := some ⟨.slot c code, s.driveBytes x.cfg.controller code, 0⟩, sending := true, lineIdle := false
        queue := { s.zp.queue with nextEntry := s.zp.queue.nextEntry + 1 } } }
  else { u with zp := { s.zp with queue := s.zp.queue.joined (.slot c) } }

/-- A command finds its slot: the slot is full, or the segment is NORMAL, a free line with an empty queue. -/
abbrev State.slotOpen (s : State) (c : Fin 4) : Prop :=
  (s.chan c).command = none → s.zp.segment = .normal ∧ s.zp.ready

/-- A HALT finds its slot, or is refused its place: the same, the segment NORMAL or FAULTED. -/
abbrev State.haltOpen (s : State) (c : Fin 4) : Prop :=
  (s.chan c).command = none → s.zp.segment = .normal → s.zp.ready

/-- The slot is empty and its place gone from the zone queue (R45). -/
def State.slotEmptied (s : State) (c : Fin 4) : State :=
  { s with zp := { s.zp with queue := { s.zp.queue with places := s.zp.queue.places.filter fun p => !p.isSlot c } } }.modChan
    c fun x => { x with command := none }

/-- What the stop sequence leaves: STOP in the slot, STOPPING with its cause, the stop timer alone of those that may
run (R128). -/
def State.stoppedBy (s : State) (c : Fin 4) (cause : StopCause) : State :=
  (s.commanded c .stop).modChan c fun x =>
    { x with state := .stopping, phase := .none, stopCause := cause
             timers := { x.timers with gap := none, start := none, travel := none, jog := none
                                       stop := some (s.now + x.cfg.timings.stopTimeout) } }

/-- The channel holds its motor load: STARTING, RUNNING, JOGGING or STOPPING (R131). -/
def State.drives (s : State) (c : Fin 4) : Bool :=
  [ChanState.starting, .running, .jogging, .stopping].contains (s.chan c).state

/-- What the release of channel `c`'s motor load leaves: the load OFF and off the Admission List, and no load waiting
for the channel (R101). -/
def State.motorOff (s : State) (c : Fin 4) : State :=
  { s with lbu := { s.lbu with
      admission := s.lbu.admission.filter (· != (s.chan c).cfg.motorLoad)
      loads := mapAll (upd s.lbu.loads (s.chan c).cfg.motorLoad fun l =>
          { l with state := .off, demand := 0, granted := 0, committed := 0, requested := 0, lastFade := 0
                   inrushTimer := .stopped })
        fun l => if l.waiting = some c then { l with waiting := none } else l } }

/-- What entry to IDLE leaves of the channel (R126). -/
def State.atIdle (s : State) (c : Fin 4) : State :=
  s.modChan c fun x =>
    { x with state := .idle, phase := .none, owner := none, timers := .stopped, enable := false }

/-- What a withdrawal leaves: the START gone from its slot, where the phase is QUEUED, the motor load released, the channel
IDLE with the stop cause recorded (R127). -/
def State.withdrawn (s : State) (c : Fin 4) (cause : StopCause) : State :=
  (((if (s.chan c).phase = .queued then s.slotEmptied c else s).motorOff c).atIdle c).modChan c fun x =>
    { x with stopCause := cause }

/-- What entry to FAULT leaves of the channel, its slot apart (R129). -/
def State.atFault (s : State) (c : Fin 4) (cause : FaultCause) : State :=
  s.modChan c fun x =>
    { x with state := .fault, phase := .none, owner := none, timers := .stopped, enable := false
             faultCause := cause, faultState := x.state }

/-- A fault of the channel: its motor load, if it holds one, is released, and notice FAULT carries the state it came
from (R129, R131). Its slot apart. -/
def State.faultedBy (s : State) (c : Fin 4) (cause : FaultCause) : State :=
  ((if s.drives c then s.motorOff c else s).atFault c cause).noting .fault c.val
    ((s.chan c).state.code * 256 + cause.code)

/-- Entry to FAULT writes a HALT: the motion is under way or the cause is CONTROLLER_FAULT, and the cause is not SEGMENT
(R129). -/
abbrev State.halts (s : State) (c : Fin 4) (cause : FaultCause) : Prop :=
  cause ≠ .segment ∧
    (cause = .controllerFault ∨ (s.chan c).state = .running ∨ (s.chan c).state = .jogging ∨
      (s.chan c).state = .stopping ∨ ((s.chan c).state = .starting ∧ (s.chan c).phase = .sent))

/-- Entry to FAULT, the slot with it: HALT in the slot, or the slot left empty (R129; log 13). -/
def State.faulting (s : State) (c : Fin 4) (cause : FaultCause) : State :=
  (if s.halts c cause then s.commanded c .halt else s.slotEmptied c).faultedBy c cause

/-- A HALT that an entry to FAULT writes finds its slot, or is refused its place. -/
abbrev State.faultOpen (s : State) (c : Fin 4) (cause : FaultCause) : Prop := s.halts c cause → s.haltOpen c

/-- Several channels fault, in ascending number (R147, R148). -/
def State.faultingAll (s : State) (on : Fin 4 → Bool) (cause : FaultCause) : State :=
  (List.finRange 4).foldl (fun u c => if on c then u.faulting c cause else u) s

/-- What entry to FAULTED and a segment reset empty (R30, R32, R47): a reception is abandoned, its buffer returned, and
counted when it held one; the shifter, the queue, each buffer place of which releases its reference, and the slots. -/
def State.segmentEmptied (s : State) : State :=
  let freed := match s.zp.rx with
    | some ⟨some b⟩ => s.dropRef b
    | some ⟨none⟩ | none => s
  { s with
    pool := (freed.dropRefs s.zp.queue.buffers).pool
    ds := { s.ds with channels := mapAll s.ds.channels fun x => { x with command := none } }
    zp := { s.zp with
      rx := none, shifter := none, sending := false, queue := { s.zp.queue with places := [] }
      counters := { s.zp.counters with
        longOrAborted := if s.zp.rx.any (fun x => x.buf.isSome) then bump s.zp.counters.longOrAborted
          else s.zp.counters.longOrAborted } } }

/-- The buffers that the zone queue and the Zone Port's reception hold are not free (R36). -/
abbrev State.segmentHolds (s : State) : Prop :=
  (∀ b ∈ s.zp.queue.buffers, (s.buf b).free = false) ∧ ∀ b, s.zp.rx = some ⟨some b⟩ → (s.buf b).free = false

/-- Every channel that was active is in FAULT with the cause and holds nothing, its slot empty; every other channel keeps
its state (R129, R148). -/
def State.faultsActive (s t : State) (cause : FaultCause) : Prop :=
  ∀ c : Fin 4, ((s.chan c).state.active = false → (t.chan c).state = (s.chan c).state) ∧
    ((s.chan c).state.active = true → (t.chan c).state = .fault ∧ (t.chan c).enable = false ∧
      (t.chan c).faultCause = cause ∧ (t.chan c).faultState = (s.chan c).state ∧ (t.chan c).owner = none ∧
      (t.chan c).phase = .none ∧ (t.chan c).timers = .stopped ∧ (t.chan c).command = none)

/-- The level of every SWITCHED and DIMMED load that draws is due again (R104). -/
def State.levelsDue (s : State) : State :=
  { s with lbu := { s.lbu with loads := mapAll s.lbu.loads fun l =>
      if (l.state = .inrush ∨ l.state = .on) ∧ l.cfg.type ≠ .motor then { l with due := true } else l } }

/-- The load's waiting-channel mark is cleared (R101). -/
def State.markCleared (s : State) (n : Fin 96) : State :=
  { s with lbu := { s.lbu with loads := upd s.lbu.loads n fun l => { l with waiting := none } } }

/-- The START of the channel's direction waits in the slot, phase QUEUED (R140). -/
def State.startWritten (s : State) (c : Fin 4) : State :=
  (s.modChan c fun x => { x with phase := .queued }).commanded c
    (if (s.chan c).direction = .a then .startA else .startB)

/-- What the switching on of a SWITCHED or MOTOR load asks for: I, or F when the inrush time is 0 (R85, R97, R100). -/
def LoadCfg.asksFor (c : LoadCfg) : Nat := if c.inrushTime = 0 then c.full else c.inrush

/-- What its switching on makes of a SWITCHED or MOTOR load: INRUSH at I with its timer as given, or, with an inrush time of
0, ON at F at once (R97, R100). -/
def Load.onAt (l : Load) (timer : InrushTimer) : Load :=
  if l.cfg.inrushTime = 0 then
    { l with state := .on, demand := l.cfg.full, granted := 1000, committed := 1000, requested := 1000, lastFade := 0 }
  else
    { l with state := .inrush, demand := l.cfg.inrush, granted := 1000, committed := 1000, requested := 1000
             lastFade := 0, inrushTimer := timer }

/-- The report of the frame in the shifter, from buffer `b`, changes nothing: it is no LEVEL_SET of the part's own, its
level is not 0, or no valid load of its device and output is marked (R28, R29, R103). -/
abbrev State.reportsNothing (s : State) (b : Fin 48) (f : List Byte) : Prop :=
  frameKind f ≠ 2 ∨ (s.buf b).status.arrival ≠ .internal ∨ halfAt f 8 ≠ 0 ∨
    ∀ n : Fin 96, (s.lbu.loads[n.val]).cfg.valid = true → (s.lbu.loads[n.val]).cfg.device = byteAt f 2 →
      (s.lbu.loads[n.val]).cfg.output.val = (byteAt f 7).toNat → (s.lbu.loads[n.val]).waiting = none

/-- The frame in the shifter is a LEVEL_SET of the part's own at level 0 for load `n` alone, which is marked as waiting
for channel `c` (R101, R103). -/
abbrev State.reportsMark (s : State) (b : Fin 48) (f : List Byte) (n : Fin 96) (c : Fin 4) : Prop :=
  frameKind f = 2 ∧ (s.buf b).status.arrival = .internal ∧ halfAt f 8 = 0 ∧
    (∀ m : Fin 96, ((s.lbu.loads[m.val]).cfg.valid = true ∧ (s.lbu.loads[m.val]).cfg.device = byteAt f 2 ∧
      (s.lbu.loads[m.val]).cfg.output.val = (byteAt f 7).toNat) ↔ m = n) ∧
    (s.lbu.loads[n.val]).waiting = some c

/-- No load but `n` is marked for channel `c`, which is STARTING in phase SHEDDING: with the mark of `n` cleared, its
shedding is complete (R101, R140). -/
abbrev State.lastMark (s : State) (n : Fin 96) (c : Fin 4) : Prop :=
  (∀ m : Fin 96, m ≠ n → (s.lbu.loads[m.val]).waiting ≠ some c) ∧ (s.chan c).state = .starting ∧
    (s.chan c).phase = .shedding

/-- The mark of load `n`, if it holds one, is cleared, and the START of a channel whose shedding that completes is written
(R101, R140). -/
def State.unmarked (s : State) (n : Fin 96) : State :=
  match (s.lbu.loads[n.val]).waiting with
  | none => s
  | some c => if s.lastMark n c then (s.markCleared n).startWritten c else s.markCleared n

/-- The clearing of the load's mark writes no START, or one that finds its slot. -/
abbrev State.markOpen (s : State) (n : Fin 96) : Prop :=
  ∀ c : Fin 4, (s.lbu.loads[n.val]).waiting = some c → s.lastMark n c → s.slotOpen c

/-! ### Release events (R84, R85) -/

/-- What the restore walk asks for to bring a load back (R85). -/
def Load.backAsks (l : Load) : Nat :=
  if l.cfg.type = .dimmed then (l.cfg.full * l.requested + 999) / 1000 else l.cfg.asksFor

/-- What its restoring makes of a load (R85). -/
def Load.back (l : Load) (now : Nat) : Load :=
  if l.cfg.type = .dimmed then
    { l with state := .on, granted := l.requested, committed := l.requested
             demand := (l.cfg.full * l.requested + 999) / 1000, lastFade := 0, due := true }
  else if l.cfg.inrushTime = 0 then
    { l with state := .on, granted := 1000, committed := 1000, demand := l.cfg.full, lastFade := 0, due := true }
  else
    { l with state := .inrush, granted := 1000, committed := 1000, demand := l.cfg.inrush, lastFade := 0, due := true
             inrushTimer := .running (now + l.cfg.inrushTime * 10) }

/-- A load is restored: it leaves the Shed List for the tail of the Admission List, notice RESTORED says its level, and its
mark is cleared (R85). -/
def State.broughtBack (s : State) (n : Fin 96) : State :=
  ({ s with lbu := { s.lbu with
      shedList := s.lbu.shedList.filter (· != n), admission := s.lbu.admission ++ [n]
      loads := upd s.lbu.loads n fun l => l.back s.now } }.noting .restored n.val
    ((s.lbu.loads[n.val]).back s.now).granted).unmarked n

/-- The restore walk: a load of a tripped branch is passed over, one that fits is restored, and the first that does not
fit ends it (R85). -/
def State.restoring (s : State) : List (Fin 96) → State
  | [] => s
  | n :: rest =>
    if s.lbu.trip[((s.lbu.loads[n.val]).cfg.branch).val] then s.restoring rest
    else if s.lbu.fits n (s.lbu.loads[n.val]).backAsks then (s.broughtBack n).restoring rest
    else s

/-- The restore walk over the Shed List, the flags brought up to date before it (R84). -/
def State.walked (s : State) : State := s.current.restoring s.lbu.shedList

/-- A load was restored on the way from `s` to `t`. -/
def State.restores (s t : State) : Bool := t.lbu.shedList != s.lbu.shedList

/-- The end of an event at LBU: the flags brought up to date and, in a release event, the restore walk; a level try when a
level is due (R84, R102; log 6). -/
def State.settled (s : State) (released : Bool := false) (due : Bool := false) : State :=
  let t := if released then s.walked else s.current
  if due || s.restores t then t.levelTry else t

/-- The end of an event: LBU's, and a notice try when a notice was queued (R84, R102, R169; log 6). -/
def State.ends (s : State) (released : Bool := false) (due : Bool := false) (noticed : Bool := false) : State :=
  let t := s.settled released due
  if noticed || s.restores t then t.noticeTry else t

/-- The restore walk finds its loads: none of the Shed List is a MOTOR load or draws anything (R80, R83), and a START that
the clearing of a mark writes finds its slot. -/
abbrev State.shedFree (s : State) : Prop :=
  ∀ m ∈ s.lbu.shedList, (s.lbu.loads[m.val]).cfg.type ≠ .motor ∧ (s.lbu.loads[m.val]).demand = 0 ∧
    ∀ c : Fin 4, (s.lbu.loads[m.val]).waiting = some c → (s.chan c).state = .starting → (s.chan c).phase = .shedding →
      s.slotOpen c

/-! ### Shedding, limits, motor loads -/

/-- What shedding makes of a load, the channel that waits for it named if there is one; asked for 0, it is OFF and takes no
shed order number (R83, R100). -/
def Load.shedFor (w : Load) (wait : Option (Fin 4)) (order : Nat) : Load :=
  { w with state := if w.requested = 0 then .off else .shed
           demand := 0, granted := 0, committed := 0, lastFade := 0, fade := .stopped, inrushTimer := .stopped, due := true
           shedOrder := if w.requested = 0 then w.shedOrder else order
           waiting := if wait.isSome then wait else w.waiting }

/-- A load is shed: it leaves the Admission List and, unless it is asked for 0, joins the Shed List behind the loads of its
own priority and of lower numbers, with the next shed order number; notice SHED says the level it is asked for (R82,
R83). -/
def State.withShed (s : State) (wait : Option (Fin 4)) (n : Fin 96) : State :=
  let l := s.lbu.loads[n.val]
  let ahead := fun m : Fin 96 => decide ((s.lbu.loads[m.val]).cfg.priority ≤ l.cfg.priority)
  State.noting
    { s with lbu := { s.lbu with
        admission := s.lbu.admission.filter (· != n)
        shedList := if l.requested = 0 then s.lbu.shedList
          else s.lbu.shedList.takeWhile ahead ++ n :: s.lbu.shedList.dropWhile ahead
        nextShed := if l.requested = 0 then s.lbu.nextShed else s.lbu.nextShed + 1
        loads := upd s.lbu.loads n fun w => w.shedFor wait s.lbu.nextShed } } .shed n.val l.requested

/-- The order of a walk: the loads of the Admission List that draw, are not bound and are of a priority number above `p`, by
priority number descending and, among equals, newest first (R88, R98). -/
def Budget.walkOrder (u : Budget) (p : Nat) : List (Fin 96) :=
  [7, 6, 5, 4, 3, 2, 1].flatMap fun q => u.admission.reverse.filter fun n =>
    (u.loads[n.val]).cfg.priority.val == q && decide (p < q) && (u.loads[n.val]).drawing && (u.loads[n.val]).bound.isNone

/-- A walk above priority `p` finds its loads: each once, valid and no MOTOR load (R80, R82; a MOTOR load that draws is
bound, R101). -/
abbrev Budget.walkable (u : Budget) (p : Nat) : Prop :=
  (u.walkOrder p).Nodup ∧
    ∀ m ∈ u.walkOrder p, (u.loads[m.val]).cfg.valid = true ∧ (u.loads[m.val]).cfg.type ≠ .motor

/-- The shed walk for load `n` to draw `d`: it stops as soon as that fits; a load of the branch is taken, and one of another
branch while the total has a deficit (R98). -/
def State.makingRoom (s : State) (n : Fin 96) (d : Nat) (wait : Option (Fin 4)) : List (Fin 96) → State
  | [] => s
  | m :: rest =>
    if s.lbu.fits n d then s
    else if (s.lbu.loads[m.val]).cfg.branch = (s.lbu.loads[n.val]).cfg.branch ∨
        s.lbu.effTotal < s.lbu.total - (s.lbu.loads[n.val]).demand + d then
      (s.withShed wait m).makingRoom n d wait rest
    else s.makingRoom n d wait rest

/-- What the shed walk for load `n`, which asks for `d`, sheds; with it shed, the load fits or it is refused (R98). -/
def State.roomFor (s : State) (n : Fin 96) (d : Nat) (wait : Option (Fin 4)) : State :=
  s.makingRoom n d wait (s.lbu.walkOrder (s.lbu.loads[n.val]).cfg.priority.val)

/-- The limit-decrease walk: a load is taken while its branch or the total is above its limit (R88). -/
def State.decreasing (s : State) : List (Fin 96) → State
  | [] => s
  | m :: rest =>
    if s.lbu.effBranch (s.lbu.loads[m.val]).cfg.branch < s.lbu.commit (s.lbu.loads[m.val]).cfg.branch ∨
        s.lbu.effTotal < s.lbu.total then
      (s.withShed none m).decreasing rest
    else s.decreasing rest

/-- What a limit-decrease walk sheds (R88). -/
def State.decreased (s : State) : State := s.decreasing (s.lbu.walkOrder 0)

/-- Loads were shed on the way from `s` to `t`. -/
def State.sheds (s t : State) : Bool := t.lbu.admission != s.lbu.admission

/-- What the trip of branch `b` sheds: every load of it that draws and is not bound, in ascending number, whatever its
priority (R90). -/
def State.darkened (s : State) (b : Fin 4) : State :=
  ((List.finRange 96).filter fun m => (s.lbu.loads[m.val]).cfg.branch == b && (s.lbu.loads[m.val]).drawing &&
    (s.lbu.loads[m.val]).bound.isNone).foldl (fun u m => u.withShed none m) s

/-- Some OVERCOMMIT flag that is clear has its sum above its limit (R89). -/
abbrev State.setsOver (s : State) : Prop :=
  (∃ b : Fin 4, s.lbu.overBranch[b.val] = false ∧ s.lbu.effBranch b < s.lbu.commit b) ∨
    (s.lbu.overTotal = false ∧ s.lbu.effTotal < s.lbu.total)

/-- Notice OVERCOMMIT of a branch whose flag goes from clear to set, with the deficit (R89). -/
def State.overNoted (t : State) (b : Fin 4) : State :=
  if t.lbu.overBranch[b.val] = false ∧ t.lbu.effBranch b < t.lbu.commit b then
    t.noting .overcommit b.val (min 65535 (t.lbu.commit b - t.lbu.effBranch b))
  else t

/-- What a limit-decrease walk leaves once its loads are shed: each flag set exactly where its sum is above its limit, and
a notice for each that was clear, for branches 0 to 3 and then for the total, subject 4 (R89; the order is the model's,
log 28). -/
def State.overcommitted (s : State) : State :=
  let t := (((s.overNoted 0).overNoted 1).overNoted 2).overNoted 3
  let u := if s.lbu.overTotal = false ∧ s.lbu.effTotal < s.lbu.total then
      t.noting .overcommit 4 (min 65535 (s.lbu.total - s.lbu.effTotal))
    else t
  { u with lbu := { s.lbu with
      overBranch := .ofFn fun b => decide (s.lbu.effBranch b < s.lbu.commit b)
      overTotal := decide (s.lbu.effTotal < s.lbu.total) } }

/-- No effective limit of `u` is above that of `s` (R84). -/
abbrev State.noRise (s : State) (u : Budget) : Prop :=
  (∀ b : Fin 4, u.effBranch b ≤ s.lbu.effBranch b) ∧ u.effTotal ≤ s.lbu.effTotal

/-- A motor load of channel `c` that may be asked for: valid, bound to the channel, OFF and drawing nothing, its branch
not tripped (R100). -/
abbrev State.motorReady (s : State) (c : Fin 4) (n : Fin 96) : Prop :=
  (s.lbu.loads[n.val]).cfg.valid = true ∧ (s.lbu.loads[n.val]).cfg.type = .motor ∧
    (s.lbu.loads[n.val]).bound = some c ∧ (s.lbu.loads[n.val]).state = .off ∧ (s.lbu.loads[n.val]).demand = 0 ∧
    s.lbu.trip[((s.lbu.loads[n.val]).cfg.branch).val] = false

/-- A motor load that fits is admitted: it joins the Admission List, and its inrush timer waits for its START (R100). -/
def State.motorAdmitted (s : State) (n : Fin 96) : State :=
  { s with lbu := { s.lbu with
      admission := s.lbu.admission ++ [n], loads := upd s.lbu.loads n fun l => l.onAt .waiting } }

/-- LBU refuses the motor load of channel `c`: it may not be asked for, its branch is tripped, or it does not fit and
what may be shed does not make the room (R98, R100). -/
abbrev State.motorRefused (s : State) (c : Fin 4) (n : Fin 96) : Prop :=
  (s.lbu.loads[n.val]).cfg.valid = false ∨ (s.lbu.loads[n.val]).cfg.type ≠ .motor ∨
    (s.lbu.loads[n.val]).bound ≠ some c ∨ (s.lbu.loads[n.val]).state ≠ .off ∨
    s.lbu.trip[((s.lbu.loads[n.val]).cfg.branch).val] = true ∨
    (s.lbu.fits n (s.lbu.loads[n.val]).cfg.asksFor = false ∧ s.lbu.walkable (s.lbu.loads[n.val]).cfg.priority.val ∧
      (s.roomFor n (s.lbu.loads[n.val]).cfg.asksFor (some c)).lbu.fits n (s.lbu.loads[n.val]).cfg.asksFor = false)

/-! ### Frames and the points they feed -/

/-- A frame for device 0 of the own zone reaches the block that owns its kind (R52, R54). -/
abbrev State.hears (s : State) (src : Source) : Prop := discarded s src = false ∧ s.assigned = true

/-- A STATE frame feeds the point: the point is valid, the frame's origin is its source, and the payload reaches its
position (R70). -/
def pointFed (f : List Byte) (x : Point) : Bool :=
  x.cfg.valid && x.cfg.source == frameOrigin f && decide (2 * x.cfg.position.val + 2 ≤ (framePayload f).length)

/-- The value that a STATE frame holds at the point's position (R70). -/
def pointValue (f : List Byte) (x : Point) : Half := halfAt (framePayload f) (2 * x.cfg.position.val)

/-- The points that a STATE frame feeds are VALID with its values and age 0, every other point is as it was (R71). -/
def State.fedBy (s : State) (f : List Byte) : State :=
  { s with
    pm := { points := mapAll s.pm.points fun x =>
      if pointFed f x then { x with state := .valid (pointValue f x) s.now } else x } }

/-- A STATE frame leaves the source mode as it is: the mode is by hand, or by a point that the frame does not feed or
feeds a value that names no other mode (R75, R87). -/
abbrev State.steady (s : State) (f : List Byte) : Prop :=
  ∀ k : Fin 64, s.lbu.selector = .fromPoint k → pointFed f s.pm.points[k.val] = true →
    4 ≤ (pointValue f s.pm.points[k.val]).toNat ∨ (pointValue f s.pm.points[k.val]).toNat = s.lbu.mode.index.val

/-- Every condition that the channel uses holds, its freshness apart (R152, R153). -/
abbrev State.calm (s : State) (x : Fin 4) : Prop := ∀ j : Fin 48, (s.chan x).uses j = true → condHolds s j = true

/-! ### Conditions that fail (R154 to R156), and what a STATE frame does (R70 to R75) -/

/-- Channel `c` watches a condition of `ks`: it is in ARMED, STARTING, RUNNING or JOGGING, and its direction's list names
one (R153). -/
def State.watches (s : State) (ks : List (Fin 48)) (c : Fin 4) : Bool := ks.any fun k => (s.chan c).uses k

/-- It does so in STARTING before the START is SENT (R156). -/
def State.withdraws (s : State) (ks : List (Fin 48)) (c : Fin 4) : Bool :=
  s.watches ks c && (s.chan c).state == .starting && (s.chan c).phase != .sent

/-- What becomes of a channel that is told that conditions `ks` have failed: ARMED, it is IDLE; a start not yet SENT is
withdrawn; a motion under way takes the stop sequence; and notice INTERLOCK says the first condition of its list that is not
true (R127, R156). -/
def State.interlocked (s : State) (ks : List (Fin 48)) (c : Fin 4) : State :=
  match ((s.chan c).list (s.chan c).direction).find? fun k => ks.contains k || !condHolds s k with
  | none => s
  | some k =>
    State.noting (match (s.chan c).state with
      | .armed => s.atIdle c
      | .starting => if (s.chan c).phase = .sent then s.stoppedBy c .interlock else s.withdrawn c .interlock
      | .running | .jogging => s.stoppedBy c .interlock
      | .off | .idle | .stopping | .fault => s) .interlock c.val k.val

/-- Conditions `ks` have failed: every channel that watches one of them is told, in ascending number (R156). -/
def State.interlockedAll (s : State) (ks : List (Fin 48)) : State :=
  (List.finRange 4).foldl (fun u c => if u.watches ks c then u.interlocked ks c else u) s

/-- A STOP that the failing of conditions `ks` writes finds its slot. -/
def State.stopsOpen (s : State) (ks : List (Fin 48)) : Bool :=
  decide (∀ c : Fin 4, s.watches ks c = true → s.withdraws ks c = false → (s.chan c).state ≠ .armed → s.slotOpen c)

/-- The valid conditions on point `p` that do not hold (R152, R154). -/
def State.failing (s : State) (p : Fin 64) : List (Fin 48) :=
  (List.finRange 48).filter fun k =>
    (s.ie.conditions[k.val]).valid && (s.ie.conditions[k.val]).point == p && !condHolds s k

/-- The points that a STATE frame feeds, in ascending number (R70, R72). -/
def State.fedPoints (s : State) (f : List Byte) : List (Fin 64) :=
  (List.finRange 64).filter fun p => pointFed f s.pm.points[p.val]

/-- The conditions on those points that do not hold with their new values. -/
def State.upset (s : State) (f : List Byte) : List (Fin 48) := (s.fedPoints f).flatMap (s.fedBy f).failing

/-- A STATE frame has fed its points, and the update event of each, in ascending number, has told the channels of the
conditions on it that fail (R71, R72, R154, R156). -/
def State.updatedBy (s : State) (f : List Byte) : State :=
  (s.fedPoints f).foldl (fun u p => u.interlockedAll (u.failing p)) (s.fedBy f)

/-- The source mode that a STATE frame changes to: its value for the point that the selector names, of 0 to 3 and not the
present mode (R75, R87). -/
def State.newMode (s : State) (f : List Byte) : Option (Fin 4) :=
  match s.lbu.selector with
  | .manual => none
  | .fromPoint k =>
    if pointFed f s.pm.points[k.val] then
      (List.finRange 4).find? fun m => m.val == (pointValue f s.pm.points[k.val]).toNat && m != s.lbu.mode.index
    else none

/-- The present mode is `m`. -/
def State.inMode (s : State) (m : Fin 4) : State := { s with lbu := { s.lbu with mode := .ofIndex m } }

/-- What a STATE frame makes of the part, the end of its event apart: points, channels and, with a new mode, the
limit-decrease walk and the OVERCOMMIT flags (R72, R75, R87 to R89). -/
def State.observing (s : State) (f : List Byte) : State :=
  match s.newMode f with
  | none => s.updatedBy f
  | some m => ((s.updatedBy f).inMode m).decreased.overcommitted

/-- Its event is a release event: a start is withdrawn, or a limit rises (R84, R101). -/
def State.observingReleases (s : State) (f : List Byte) : Bool :=
  (List.finRange 4).any ((s.fedBy f).withdraws (s.upset f)) ||
    (s.newMode f).any fun m => decide (¬ s.noRise (s.inMode m).lbu)

/-- It sheds a load. -/
def State.observingSheds (s : State) (f : List Byte) : Bool :=
  (s.newMode f).any fun m => ((s.updatedBy f).inMode m).sheds ((s.updatedBy f).inMode m).decreased

/-- It queues a notice, those of restored loads apart. -/
def State.observingNotes (s : State) (f : List Byte) : Bool :=
  (List.finRange 4).any ((s.fedBy f).watches (s.upset f)) || s.observingSheds f ||
    (s.newMode f).any fun m => decide ((s.updatedBy f).inMode m).decreased.setsOver

/-- Its walks find their loads, and its STOPs their slots. -/
abbrev State.observable (s : State) (f : List Byte) : Prop :=
  (s.fedBy f).stopsOpen (s.upset f) = true ∧
    ((s.newMode f).all fun m => decide (((s.updatedBy f).inMode m).lbu.walkable 0)) = true ∧
    (s.observingReleases f = true → (s.observing f).shedFree)

/-! ### Recalls, verbs, indications, requests -/

/-- Slot `i` is the one that a recall of scene `n` takes: the slot that holds the scene; else the lowest FREE slot; else,
all being ACTIVE, the one of the earliest recall order (R112). -/
abbrev State.slotFor (s : State) (n : Fin 128) (i : Fin 4) : Prop :=
  let holds := fun j : Fin 4 => (s.sx.slots[j.val]).any (fun x => x.scene == n) = true
  let active := fun j : Fin 4 => (s.sx.slots[j.val]).isSome = true
  (holds i ∧ ∀ j : Fin 4, j < i → ¬ holds j) ∨
    ((∀ j : Fin 4, ¬ holds j) ∧ ¬ active i ∧ ∀ j : Fin 4, j < i → active j) ∨
    ((∀ j : Fin 4, ¬ holds j) ∧ (∀ j : Fin 4, active j) ∧ (∀ j : Fin 4, s.sx.order i ≤ s.sx.order j) ∧
      ∀ j : Fin 4, j < i → s.sx.order i < s.sx.order j)

/-- A recall of scene `n` takes the slot of another scene (R112). -/
abbrev State.evicts (s : State) (n : Fin 128) : Prop :=
  ∀ j : Fin 4, (s.sx.slots[j.val]).isSome = true ∧ (s.sx.slots[j.val]).any (fun x => x.scene == n) = false

/-- An action whose application sends the load's level again and decides nothing: a level for a SWITCHED load that is ON,
or level 0 for a DIMMED load that is OFF (R93, R97). -/
abbrev State.resends (s : State) (a : ActionRec) : Prop :=
  ∃ m : Fin 96, a.load = m.val ∧ (s.lbu.loads[m.val]).cfg.valid = true ∧
    (((s.lbu.loads[m.val]).cfg.type = .switched ∧ (s.lbu.loads[m.val]).state = .on ∧ 1 ≤ a.level) ∨
      ((s.lbu.loads[m.val]).cfg.type = .dimmed ∧ (s.lbu.loads[m.val]).state = .off ∧ a.level = 0))

/-- What such an action leaves of LBU. -/
def State.resent (s : State) (a : ActionRec) : State :=
  { s with lbu := { s.lbu with loads := mapIdx s.lbu.loads fun m l =>
      if m.val = a.load then
        if l.cfg.type = .dimmed then { l with granted := 0, requested := 0, lastFade := a.fade, due := true }
        else { l with requested := 1000, due := true }
      else l } }

/-- A MOTION frame reaches the verb table of channel `c`: the channel is not OFF and its origin is listed (R132). -/
abbrev State.takesMotion (s : State) (src : Source) (channel : Byte) (c : Fin 4) : Prop :=
  s.hears src ∧ channel.toNat = c.val ∧ (s.chan c).state ≠ .off ∧ (s.chan c).listed src.origin = true

/-- A DRIVE frame's indication reaches channel `c`: the lowest valid channel with the origin as its controller
(R144). -/
abbrev State.takesIndication (s : State) (src : Source) (c : Fin 4) : Prop :=
  s.hears src ∧ src.origin.zone = s.mr.ownZone ∧ (s.chan c).cfg.valid = true ∧
    (s.chan c).cfg.controller = src.origin.device ∧
    ∀ d : Fin 4, d < c → ¬ ((s.chan d).cfg.valid = true ∧ (s.chan d).cfg.controller = src.origin.device)

/-- A MGMT_REQ is taken: not spent or looped, from a manager, and a buffer is free for its reply (R52, R64,
R159). -/
abbrev State.takesRequest (s : State) (src : Source) : Prop :=
  discarded s src = false ∧ s.mr.accepts src.origin = true ∧ 1 ≤ s.pool.freeCount

/-- The egress queue of the port accepts a reply's place (R44, R161). -/
def State.takesReply (s : State) : Port → Bool
  | .a => s.tpa.link == .up
  | .b => s.tpb.link == .up
  | .zone => s.zp.segment == .normal && decide (s.zp.queue.bufferPlaces < 44)

/-- A reply in its buffer, and its place on the queue of port `p`: class 2, type DEVICE, to the origin of the request,
with the own zone and the initial hop budget of the moment. Its place refused, it is lost and its buffer returned (R8, R13,
R39, R161). -/
def State.repliedAt (s : State) (p : Port) (b : Fin 48) (o : Origin) (code tag : Byte) (st : Status)
    (data : List Byte) : State :=
  let f := buildFrame 8 2 .device o.zone o.device s.mr.ownZone s.fe.hopBudget (code :: tag :: st.code :: data)
  let u := s.modBuf b fun x =>
    { x with free := false, refs := 1, status := ⟨true, false, false, .internal⟩, bytes := f }
  if s.takesReply p then
    match p with
    | .a => { u with tpa := s.tpa.taking b 2 s.fe.hopBudget f }
    | .b => { u with tpb := s.tpb.taking b 2 s.fe.hopBudget f }
    | .zone => { u with zp := s.zp.taking b 2 s.fe.hopBudget none f }
  else s.modBuf b fun x => { x with free := true, refs := 0 }

/-- A reply offered at the port finds the transmitter or the line at work, or its queue empty. -/
abbrev State.replyOpen (s : State) (p : Port) : Prop :=
  (p = .a → s.tpa.ready) ∧ (p = .b → s.tpb.ready) ∧ (p = .zone → s.zp.ready)

/-- A request that is taken and answered on the port it came in by, A, B or ZONE. -/
abbrev State.canAnswer (s : State) (src : Source) : Prop := s.takesRequest src ∧ s.replyOpen src.port

/-- Command `i` leaves the part as `u`, makes LBU's level try if it makes a level due, with the reply's buffer held already,
answers the request with a status and data, and ends with a notice try (R102, R159, R161, R169; log 6). -/
def AnswersWith (s : State) (i : Instr) (src : Source) (code tag : Byte) (st : Status) (data : List Byte) (u : State)
    (due : Bool) : Prop :=
  ∃ b : Fin 48, (s.buf b).free = true ∧
    exec i s = .next
      ((if due then State.levelTry (u.modBuf b fun x => { x with free := false, refs := 0 }) else u).repliedAt src.port b
        src.origin code tag st data).noticeTry

/-- The same of a command that makes no level due; the flags are brought up to date (R89). -/
def Answers (s : State) (i : Instr) (src : Source) (code tag : Byte) (st : Status) (data : List Byte) (u : State) :
    Prop := AnswersWith s i src code tag st data u.current false

/-- The same of a command that makes a level due. -/
def AnswersTried (s : State) (i : Instr) (src : Source) (code tag : Byte) (st : Status) (data : List Byte)
    (u : State) : Prop := AnswersWith s i src code tag st data u.current true

/-- The same of a release event, with its restore walk (R84). -/
def AnswersReleased (s : State) (i : Instr) (src : Source) (code tag : Byte) (st : Status) (data : List Byte)
    (u : State) (due : Bool) : Prop :=
  AnswersWith s i src code tag st data u.walked (due || u.restores u.walked)

/-! ### The records of the tables (R14), byte by byte

A field of ROUTE that is ANY, and an absent rewrite, holds 0 (R55). -/

def routeRecord (r : Route) : List Byte :=
  let ingress := match r.ingress with
    | .trunk => 0
    | .zone => 1
    | .any => 2
  let dtype : Byte := match r.dtype with
    | none => 0
    | some .device => 0
    | some .group => 1
    | some .zoneAll => 2
    | some .shipAll => 3
  let action : Byte := match r.action with
    | .pass => 0
    | .deliver => 1
    | .uplink => 2
    | .copy => 3
    | .drop => 4
  [ byteOf (r.valid.toNat + 2 * ingress + 8 * r.rewrite.isSome.toNat + 16 * r.kind.isNone.toNat +
      32 * r.dtype.isNone.toNat + 64 * r.value.isNone.toNat + 128 * r.originZone.isNone.toNat),
    byteOf ((r.kind.map Fin.val).getD 0), dtype, (r.value.map Prod.fst).getD 0, (r.value.map Prod.snd).getD 0,
    r.originZone.getD 0, action, r.rewrite.getD 0 ]

def loadRecord (l : LoadCfg) : List Byte :=
  let type := match l.type with
    | .switched => 0
    | .dimmed => 1
    | .motor => 2
  [ byteOf (l.valid.toNat + 2 * type + 8 * l.branch.val + 32 * l.priority.val), l.device, byteOf l.output.val,
    byteOf (l.full / 256), byteOf l.full, byteOf (l.inrush / 256), byteOf l.inrush, byteOf l.inrushTime,
    byteOf (l.minLevel / 256), byteOf l.minLevel ]

def limitRecord (l : Limits) : List Byte :=
  [ byteOf (l.branch[0] / 256), byteOf l.branch[0], byteOf (l.branch[1] / 256), byteOf l.branch[1],
    byteOf (l.branch[2] / 256), byteOf l.branch[2], byteOf (l.branch[3] / 256), byteOf l.branch[3],
    byteOf (l.total / 256), byteOf l.total ]

def pointRecord (p : PointCfg) : List Byte :=
  [byteOf p.valid.toNat, p.source.zone, p.source.device, byteOf p.position.val]

def conditionRecord (c : Condition) : List Byte :=
  let test := match c.test with
    | .eq => 0
    | .ne => 1
    | .lt => 2
    | .ge => 3
    | .bitsSet => 4
    | .bitsClear => 5
  [ byteOf (c.valid.toNat + 2 * test), byteOf c.point.val, byteOf (c.operand.toNat / 256), byteOf c.operand.toNat,
    byteOf (c.limit / 256), byteOf c.limit ]

/-- A direction list in its seven bytes: the count, then the conditions in list order, 0 beyond the count. -/
def listRecord (l : List (Fin 48)) : List Byte :=
  byteOf l.length :: (List.range 6).map fun i => ((l[i]?).map fun k => byteOf k.val).getD 0

def channelRecord (part : Fin 4) (c : ChanCfg) : List Byte :=
  match part with
  | 0 => [byteOf (c.valid.toNat + 2 * c.exclusion.toNat), c.controller, byteOf c.motorLoad.val]
  | 1 =>
    byteOf c.consoles.length :: (List.range 4).flatMap fun i =>
      [((c.consoles[i]?).map Origin.zone).getD 0, ((c.consoles[i]?).map Origin.device).getD 0]
  | 2 =>
    [c.timings.armWindow, c.timings.runGap, c.timings.startTimeout, c.timings.stopTimeout, c.timings.travelLimit,
      c.timings.jogTime].flatMap fun t => [byteOf (t / 256), byteOf t]
  | 3 => listRecord c.listA ++ listRecord c.listB

def sceneRecord (r : SceneRec) : List Byte :=
  [byteOf r.valid.toNat, byteOf (r.first / 256), byteOf r.first, byteOf r.count]

/-- The record of a run of actions, its count first. -/
def actionRecord (run : List ActionRec) : List Byte :=
  byteOf run.length :: run.flatMap fun a =>
    [byteOf a.load, byteOf (a.level / 256), byteOf a.level, byteOf a.fade, byteOf a.delay]

def managerRecord (m : Manager) : List Byte := [byteOf m.valid.toNat, m.origin.zone, m.origin.device]

/-! ### The tests of a request (R13), in their order

A byte that a payload does not hold reads as 0 (log 14). -/

/-- The request code (R13). -/
def requestCode (p : List Byte) : Nat := (byteAt p 0).toNat

/-- The table code of a WRITE or READ, the item of a READ_STATUS, the selector of a SET_MODE, or the one argument byte. -/
def requestArg (p : List Byte) : Nat := (byteAt p 2).toNat

/-- The count of actions of a WRITE or READ of ACTION. -/
def requestCount (p : List Byte) : Nat := (byteAt p 5).toNat

/-- Record length of a table but CHANNEL and ACTION, and of a part of CHANNEL (R14). -/
def tableLength (t : Nat) : Nat := [8, 10, 10, 4, 6, 0, 4, 0, 3, 1].getD t 0
def partLength (k : Nat) : Nat := [3, 9, 12, 14].getD k 0

/-- Entries of a table but CHANNEL and ACTION (R14), and numbers of a status item (R15). -/
def tableSize (t : Nat) : Nat := [64, 96, 4, 64, 48, 0, 128, 0, 2, 1].getD t 0
def itemSize (i : Nat) : Nat := [4, 4, 96, 1, 3].getD i 0

/-- Test 2: the request code is 0 or above 10. -/
abbrev wrongCode (p : List Byte) : Prop := requestCode p = 0 ∨ 10 < requestCode p

/-- Test 3: the table code of a WRITE or READ is above 9. -/
abbrev wrongTable (p : List Byte) : Prop := (requestCode p = 3 ∨ requestCode p = 4) ∧ 9 < requestArg p

/-- Test 4: N is not that of the request, or a count of actions is 0 or above 3. A part of CHANNEL above 3 in a WRITE
names no N. -/
abbrev wrongLength (p : List Byte) : Prop :=
  ((requestCode p = 1 ∨ requestCode p = 9 ∨ requestCode p = 10) ∧ p.length ≠ 2) ∨
  ((requestCode p = 2 ∨ requestCode p = 7 ∨ requestCode p = 8) ∧ p.length ≠ 3) ∨
  (requestCode p = 6 ∧ p.length ≠ 4) ∨ (requestCode p = 5 ∧ p.length ≠ 5) ∨
  (requestCode p = 4 ∧ requestArg p ≠ 7 ∧ p.length ≠ 5) ∨
  (requestCode p = 4 ∧ requestArg p = 7 ∧ (p.length ≠ 6 ∨ requestCount p = 0 ∨ 3 < requestCount p)) ∨
  (requestCode p = 3 ∧ requestArg p ≠ 5 ∧ requestArg p ≠ 7 ∧ p.length ≠ 5 + tableLength (requestArg p)) ∨
  (requestCode p = 3 ∧ requestArg p = 5 ∧ (byteAt p 3).toNat ≤ 3 ∧ p.length ≠ 5 + partLength (byteAt p 3).toNat) ∨
  (requestCode p = 3 ∧ requestArg p = 7 ∧
    (requestCount p = 0 ∨ 3 < requestCount p ∨ p.length ≠ 6 + 5 * requestCount p))

/-- Test 5: an index, part, scene, channel, point or number is outside its range. -/
abbrev wrongIndex (p : List Byte) : Prop :=
  ((requestCode p = 3 ∨ requestCode p = 4) ∧ requestArg p ≠ 5 ∧ requestArg p ≠ 7 ∧
    tableSize (requestArg p) ≤ (halfAt p 3).toNat) ∨
  ((requestCode p = 3 ∨ requestCode p = 4) ∧ requestArg p = 5 ∧ (3 < (byteAt p 3).toNat ∨ 3 < (byteAt p 4).toNat)) ∨
  ((requestCode p = 3 ∨ requestCode p = 4) ∧ requestArg p = 7 ∧ 1024 < (halfAt p 3).toNat + requestCount p) ∨
  (requestCode p = 5 ∧ requestArg p ≤ 4 ∧ itemSize (requestArg p) ≤ (byteAt p 3).toNat) ∨
  (requestCode p = 6 ∧ requestArg p = 4 ∧ 63 < (byteAt p 3).toNat) ∨
  (requestCode p = 7 ∧ 127 < requestArg p) ∨ (requestCode p = 8 ∧ 3 < requestArg p)

/-- A coded field of a record is outside its codes (R14, R55). -/
abbrev wrongRecord (t part : Nat) (r : List Byte) : Prop :=
  (t = 0 ∧ ((byteAt r 0).extractLsb' 1 2 = 3 ∨ ((byteAt r 0).getLsbD 4 = false ∧ 15 < (byteAt r 1).toNat) ∨
    ((byteAt r 0).getLsbD 5 = false ∧ 3 < (byteAt r 2).toNat) ∨
    ((byteAt r 0).getLsbD 6 = false ∧ 63 < (byteAt r 3).toNat) ∨
    ((byteAt r 0).getLsbD 7 = false ∧ 60 < (byteAt r 5).toNat) ∨ 4 < (byteAt r 6).toNat ∨
    ((byteAt r 0).getLsbD 3 = true ∧ byteAt r 7 = 0))) ∨
  (t = 1 ∧ ((byteAt r 0).extractLsb' 1 2 = 3 ∨ 7 < (byteAt r 2).toNat)) ∨
  (t = 3 ∧ 9 < (byteAt r 3).toNat) ∨
  (t = 4 ∧ (5 < ((byteAt r 0).extractLsb' 1 3).toNat ∨ 63 < (byteAt r 1).toNat)) ∨
  (t = 5 ∧ part = 0 ∧ 95 < (byteAt r 2).toNat) ∨ (t = 5 ∧ part = 1 ∧ 4 < (byteAt r 0).toNat) ∨
  (t = 5 ∧ part = 3 ∧ (6 < (byteAt r 0).toNat ∨ 6 < (byteAt r 7).toNat ∨
    ∃ i : Fin 6, (i.val < (byteAt r 0).toNat ∧ 47 < (byteAt r (1 + i.val)).toNat) ∨
      (i.val < (byteAt r 7).toNat ∧ 47 < (byteAt r (8 + i.val)).toNat))) ∨
  (t = 9 ∧ (byteAt r 0 = 0 ∨ 15 < (byteAt r 0).toNat))

/-- Test 6: a coded field is outside its codes. -/
abbrev wrongValue (p : List Byte) : Prop :=
  (requestCode p = 2 ∧ (requestArg p = 0 ∨ 60 < requestArg p)) ∨
  (requestCode p = 3 ∧ wrongRecord (requestArg p) (byteAt p 3).toNat (p.drop 5)) ∨
  (requestCode p = 5 ∧ (4 < requestArg p ∨ 1 < (byteAt p 4).toNat)) ∨ (requestCode p = 6 ∧ 4 < requestArg p)

/-! ### Drive channels (R126, R130, R147) -/

/-- A channel at rest: no owner, no phase, no timer, the enable output low (R126). -/
def Channel.rests (x : Channel) : Bool :=
  x.owner.isNone && x.phase == .none && x.timers == .stopped && !x.enable

/-- The states in which the enable output may be high (R126, R130). -/
def Channel.mayEnable (x : Channel) : Bool :=
  (x.state == .starting && x.phase == .sent) || x.state == .running || x.state == .jogging || x.state == .stopping

/-- The enable output is high only in a motion; a channel that is not active rests; and no channel is active
while the emergency-stop loop is open or its drive trip input asserted (R126, R130, R147). -/
def DriveSafe (s : State) : Prop :=
  ∀ c : Fin 4,
    ((s.chan c).enable = true → (s.chan c).mayEnable = true) ∧
    ((s.chan c).state.active = false → (s.chan c).rests = true) ∧
    ((s.chan c).state.active = true → s.ds.loopOpen = false ∧ s.ds.trip[c.val] = false)

/-- No two channels excluded from each other are active together (R133, R157). -/
def ExclusionLaw (s : State) : Prop :=
  ∀ c x : Fin 4, c ≠ x → s.ds.excludes c x = true →
    ¬ ((s.chan c).state.active = true ∧ (s.chan x).state.active = true)

/-- Every condition in use is valid and holds; its freshness is left to the freshness expiry (R153, R155). -/
def InterlockLaw (s : State) : Prop := ∀ k : Fin 48, inUse s k = true → condHolds s k = true

/-! ### Queues (R19, R31, R42 to R45) -/

/-- The order of an egress queue: by class, then by entry (R43). -/
def Queue.ordered (q : Queue) : Prop :=
  q.places.Pairwise (fun x y => x.cls < y.cls ∨ (x.cls = y.cls ∧ x.entry < y.entry)) ∧
    ∀ x ∈ q.places, x.entry < q.nextEntry

/-- What each trunk queue keeps: its order, buffer places only, and no place while the link is DOWN. -/
def TrunkPort.lawful (p : TrunkPort) : Prop :=
  p.queue.ordered ∧ (∀ x ∈ p.queue.places, x.isBuffer = true) ∧ (p.link = .down → p.queue.places = [])

/-- What the zone queue keeps: its order, at most 44 buffer places, one slot place for each command that waits in
its slot and none for an empty slot, and no place while the segment is FAULTED. -/
def QueueLaw (s : State) : Prop :=
  s.tpa.lawful ∧ s.tpb.lawful ∧ s.zp.queue.ordered ∧ s.zp.queue.bufferPlaces ≤ Config.zoneBufferPlaces ∧
    (∀ c : Fin 4, s.zp.queue.places.countP (fun x => x.isSlot c) = if (s.chan c).command.isSome then 1 else 0) ∧
    (s.zp.segment = .faulted → s.zp.queue.places = [])

/-! ### Frame Pool (R36, R37) -/

/-- The places of a queue that hold a buffer. -/
def Queue.placesOf (q : Queue) (b : Fin 48) : Nat := q.places.countP fun x => x.holds b

/-- The reception fills the buffer. -/
def receives (r : Option Reception) (b : Fin 48) : Bool := r.any fun x => x.buf == some b

/-- Holders of a buffer that hold it before classification: a reception at one of the ports, or FE. -/
def State.inbound (s : State) (b : Fin 48) : Nat :=
  (if receives s.tpa.rx b then 1 else 0) + (if receives s.tpb.rx b then 1 else 0) +
    (if receives s.zp.rx b then 1 else 0) + s.fe.hold.countP fun h => h.buf == b

/-- Queue places that hold a buffer. -/
def State.outbound (s : State) (b : Fin 48) : Nat :=
  s.tpa.queue.placesOf b + s.tpb.queue.placesOf b + s.zp.queue.placesOf b

/-- A transmission or a shifter that sends from a buffer has the buffer's place in its queue. -/
def State.sendsHeld (s : State) (b : Fin 48) : Prop :=
  ((s.tpa.tx.any fun x => x.origin == .buffer b) = true → s.tpa.queue.placesOf b = 1) ∧
    ((s.tpb.tx.any fun x => x.origin == .buffer b) = true → s.tpb.queue.placesOf b = 1) ∧
    ((s.zp.shifter.any fun x => x.origin == .buffer b) = true → s.zp.queue.placesOf b = 1)

/-- The law of the pool: a buffer's reference count is the number of its holders, it is on the free list exactly
when that is 0, one reception or FE holds it or else places do, each queue at most once (R36, R37); and the Zone
Port does not receive while it sends (R25). -/
def PoolLaw (s : State) : Prop :=
  (s.zp.sending = true → s.zp.rx = none) ∧ ∀ b : Fin 48,
    (s.buf b).refs = s.inbound b + s.outbound b ∧ ((s.buf b).free = true ↔ (s.buf b).refs = 0) ∧
    (s.inbound b = 0 ∨ (s.inbound b = 1 ∧ s.outbound b = 0)) ∧
    s.tpa.queue.placesOf b ≤ 1 ∧ s.tpb.queue.placesOf b ≤ 1 ∧ s.zp.queue.placesOf b ≤ 1 ∧ s.sendsHeld b

/-! ### Load budget (R78, R80, R82, R124, R131) -/

/-- The lists of R82: the Shed List holds the shed loads, each once, by priority and among equals by shed order; the
Admission List holds the loads in INRUSH or ON, each once. -/
def Budget.listed (u : Budget) : Prop :=
  u.shedList.Nodup ∧ (∀ n : Fin 96, n ∈ u.shedList ↔ (u.loads[n.val]).state = .shed) ∧
    u.shedList.Pairwise (fun m n =>
      (u.loads[m.val]).cfg.priority < (u.loads[n.val]).cfg.priority ∨
        ((u.loads[m.val]).cfg.priority = (u.loads[n.val]).cfg.priority ∧
          (u.loads[m.val]).shedOrder < (u.loads[n.val]).shedOrder)) ∧
    (∀ n ∈ u.shedList, (u.loads[n.val]).shedOrder < u.nextShed) ∧
    u.admission.Nodup ∧
    ∀ n : Fin 96, n ∈ u.admission ↔ ((u.loads[n.val]).state = .inrush ∨ (u.loads[n.val]).state = .on)

/-- A fade that runs to a lower level. -/
def FadeTimer.falls : FadeTimer → Bool
  | .falling _ => true
  | .rising _ | .stopped => false

/-- The account of one load: its demand by state and type (R80); an invalid load draws nothing and is not shed (R78); I is
not below F but for a DIMMED load (R79); INRUSH is not for a DIMMED load, SHED not for a MOTOR load; K is 0 in OFF and
SHED; a fade runs for a DIMMED load in ON alone, and a falling one to no more than K (R94). -/
def Load.accounted (l : Load) : Prop :=
  l.demand = (match l.state with
    | .off | .shed => 0
    | .inrush => l.cfg.inrush
    | .on => if l.cfg.type = .dimmed then (l.cfg.full * l.committed + 999) / 1000 else l.cfg.full) ∧
  (l.state ≠ .off → l.cfg.valid = true) ∧ (l.cfg.type ≠ .dimmed → l.cfg.full ≤ l.cfg.inrush) ∧
  (l.state = .inrush → l.cfg.type ≠ .dimmed) ∧ (l.state = .shed → l.cfg.type ≠ .motor) ∧
  (l.drawing = false → l.committed = 0) ∧
  (l.fade ≠ .stopped → l.state = .on ∧ l.cfg.type = .dimmed) ∧ (l.fade.falls = true → l.granted ≤ l.committed)

/-- Each sum is within its effective limit while its OVERCOMMIT flag is clear (R80). -/
def Budget.withinLimits (u : Budget) : Prop :=
  (∀ b : Fin 4, u.overBranch[b.val] = false → u.commit b ≤ u.effBranch b) ∧ (u.overTotal = false → u.total ≤ u.effTotal)

/-- Motor loads and their channels: a load is bound to a channel exactly when the channel is valid and names it, and is
then valid and of type MOTOR (R78, R124); a channel is OFF exactly when it is not valid; the motor load of a valid channel
draws exactly while the channel is STARTING, RUNNING, JOGGING or STOPPING, and no other load of type MOTOR draws
(R131). -/
def MotorLaw (s : State) : Prop :=
  (∀ (c : Fin 4) (n : Fin 96),
    (s.lbu.loads[n.val]).bound = some c ↔ ((s.chan c).cfg.valid = true ∧ (s.chan c).cfg.motorLoad = n)) ∧
  (∀ n : Fin 96, (s.lbu.loads[n.val]).bound.isSome = true →
    (s.lbu.loads[n.val]).cfg.valid = true ∧ (s.lbu.loads[n.val]).cfg.type = .motor) ∧
  (∀ c : Fin 4, (s.chan c).state = .off ↔ (s.chan c).cfg.valid = false) ∧
  (∀ c : Fin 4, (s.chan c).cfg.valid = true →
    ((s.lbu.loads[(s.chan c).cfg.motorLoad.val]).drawing = true ↔
      ((s.chan c).state = .starting ∨ (s.chan c).state = .running ∨ (s.chan c).state = .jogging ∨
        (s.chan c).state = .stopping))) ∧
  ∀ n : Fin 96, (s.lbu.loads[n.val]).cfg.type = .motor → (s.lbu.loads[n.val]).drawing = true →
    (s.lbu.loads[n.val]).bound.isSome = true

/-- What the Load Budget Unit keeps: its lists, its account, its limits and its motor loads. -/
def BudgetLaw (s : State) : Prop :=
  s.lbu.listed ∧ (∀ n : Fin 96, (s.lbu.loads[n.val]).accounted) ∧ s.lbu.withinLimits ∧ MotorLaw s

/-! ### Scenes, notices, counters (R33, R110, R116, R117, R168) -/

/-- What the Scene Expander keeps: the Delayed Action List in its order, with at most 128 entries, all of ACTIVE
slots; no scene in two slots; no load with entries of two slots; and no ACTIVE slot without an entry. -/
def SceneLaw (x : SceneExpander) : Prop :=
  x.delayed.length ≤ Config.delayedMax ∧
    x.delayed.Pairwise (fun a b => before x.order b a = false) ∧
    (∀ d ∈ x.delayed, (x.slots[d.slot.val]).isSome = true) ∧
    (∀ d ∈ x.delayed, ∀ f ∈ x.delayed, d.load = f.load → d.slot = f.slot) ∧
    (∀ i j : Fin 4, ∀ a b : SceneSlot, x.slots[i.val] = some a → x.slots[j.val] = some b → a.scene = b.scene → i = j) ∧
    ∀ i : Fin 4, (x.slots[i.val]).isSome = true → (x.delayed.any fun d => d.slot == i) = true

/-- The Notice Queue holds at most 16 notices and its mark is 0, 1 or 2; a queue without a head has mark 0. -/
def NoticeLaw (m : Management) : Prop :=
  m.notices.length ≤ Config.noticeMax ∧ m.headMark ≤ 2 ∧ (m.notices = [] → m.headMark = 0)

/-- Every counter of a port is at most 65535 (R33). -/
def Counters.bounded (k : Counters) : Prop :=
  k.good ≤ Config.counterMax ∧ k.badCheck ≤ Config.counterMax ∧ k.longOrAborted ≤ Config.counterMax ∧
    k.noBuffer ≤ Config.counterMax ∧ k.transmitted ≤ Config.counterMax ∧ k.txFailed ≤ Config.counterMax

/-- The counters of the three ports. -/
def CounterLaw (s : State) : Prop := s.tpa.counters.bounded ∧ s.tpb.counters.bounded ∧ s.zp.counters.bounded

end Sys2Proof.Machine
end

