-- ==== Sys2Proof/Certificates/Slice0/Obligations.lean ====
section
/-! DEFINITION. Obligations.lean: the statements for the provers. -/

open Sys2Proof Sys2Proof.Machine

/-! ### The machine -/

/-- One step is the command at the front of the queue, run on the state with the queue's rest.

On an empty queue a step is one millisecond of waiting (the model's choice, log 2).

Model's choices it rests on: log 2. -/
def Obligations.StepTakesFront : Prop :=
  (∀ (c : Instr) (s : State), step { s with pending := c :: s.pending } = exec c s) ∧
  (∀ s : State, s.pending = [] → step s = .next { s with now := s.now + 1 })

/-- No command touches the queue of waiting commands. -/
def Obligations.CommandsKeepQueue : Prop :=
  ∀ (c : Instr) (s t : State), exec c s = .next t → t.pending = s.pending

/-- The values every block holds after power-on reset (R34, R48, R66, R77, R106, R122, R150, R158, R162, R170), with the
levels found on the input lines; entry and order numbers start at 0 by the model's choice (log 10).

Model's choices it rests on: log 2, 10, 18. -/
def Obligations.PowerOnValues : Prop :=
  ∀ (pins : Pins) (s : State), ∃ t, exec (.powerOnReset pins) s = .next t ∧
    (∀ k : Trunk, t.trunk k =
      { link := .down, silence := none, beat := some (s.now + 20), rx := none, tx := none, queue := ⟨[], 0⟩
        counters := ⟨0, 0, 0, 0, 0, 0⟩ }) ∧
    t.zp.segment = .normal ∧ t.zp.rx = none ∧ t.zp.shifter = none ∧ t.zp.queue = ⟨[], 0⟩ ∧
    t.zp.recovery = none ∧ t.zp.counters = ⟨0, 0, 0, 0, 0, 0⟩ ∧
    t.zp.stuck = (if pins.zoneDominant then some (s.now + 100) else none) ∧
    t.pool.freeCount = 48 ∧ t.fe.hold = [] ∧ t.fe.hopBudget = 15 ∧
    (∀ i : Fin 64, (t.fe.routes[i.val]).valid = false) ∧
    (∀ k : Fin 64, t.pm.points[k.val] = ⟨⟨false, ⟨0, 0⟩, 0⟩, .unknown⟩) ∧
    (∀ n : Fin 96, (t.lbu.loads[n.val]).cfg.valid = false ∧ (t.lbu.loads[n.val]).state = .off ∧
      (t.lbu.loads[n.val]).demand = 0 ∧ (t.lbu.loads[n.val]).due = false ∧
      (t.lbu.loads[n.val]).bound = none ∧ (t.lbu.loads[n.val]).waiting = none) ∧
    (∀ m : Fin 4, t.lbu.limits[m.val] = ⟨#v[0, 0, 0, 0], 0⟩) ∧ t.lbu.selector = .manual ∧ t.lbu.mode = .shore ∧
    t.lbu.trip = pins.branchTrip ∧ t.lbu.overBranch = #v[false, false, false, false] ∧ t.lbu.overTotal = false ∧
    t.lbu.admission = [] ∧ t.lbu.shedList = [] ∧
    (∀ n : Fin 128, t.sx.scenes[n.val] = ⟨false, 0, 0⟩) ∧ t.sx.delayed = [] ∧
    (∀ i : Fin 4, t.sx.slots[i.val] = none) ∧
    (∀ c : Fin 4, (t.chan c).cfg.valid = false ∧ (t.chan c).state = .off ∧ (t.chan c).rests = true ∧
      (t.chan c).command = none ∧ (t.chan c).faultCause = .none) ∧
    t.ds.loopOpen = pins.loopOpen ∧ t.ds.trip = pins.driveTrip ∧
    (∀ k : Fin 48, (t.ie.conditions[k.val]).valid = false) ∧
    t.mr.ownZone = (if 1 ≤ pins.straps ∧ pins.straps ≤ 60 then pins.straps.zeroExtend 8 else 0) ∧
    (∀ i : Fin 2, t.mr.managers[i.val] = ⟨false, ⟨0, 0⟩⟩) ∧ t.mr.notices = [] ∧ t.mr.pendingReply = none

/-- The laws of Safety.lean hold after power-on reset.

Model's choices it rests on: log 9. -/
def Obligations.LawsAtReset : Prop :=
  DriveSafe State.reset ∧ ExclusionLaw State.reset ∧ InterlockLaw State.reset ∧ QueueLaw State.reset ∧
    PoolLaw State.reset ∧ SceneLaw State.reset.sx ∧ NoticeLaw State.reset.mr ∧ CounterLaw State.reset ∧
    BudgetLaw State.reset

/-! ### Laws kept by every step -/

/-- R126, R130, R147: an enable output is high only in a motion, with the loop closed and the trip released, and a
channel at rest holds nothing, from any state in which this is so. -/
def Obligations.DriveSafeKept : Prop :=
  ∀ s t : State, DriveSafe s → step s = .next t → DriveSafe t

/-- R133, R157: two channels excluded from each other are never active together.

R126, R157: which channels are excluded from each other, and which states are active. -/
def Obligations.ExclusionKept : Prop :=
  (∀ s t : State, ExclusionLaw s → step s = .next t → ExclusionLaw t) ∧
  (∀ (s : State) (c x : Fin 4), s.ds.excludes c x = true ↔
    ((s.chan c).cfg.exclusion.getLsbD x.val = true ∨ (s.chan x).cfg.exclusion.getLsbD c.val = true)) ∧
  ∀ x : ChanState, x.active = true ↔
    (x = .armed ∨ x = .starting ∨ x = .running ∨ x = .jogging ∨ x = .stopping)

/-- R153: a condition in use is valid and true, but for its freshness, which its own expiry watches (R155).

R152, R153: when a condition is in use and when it is true, one in use staying so whatever its point's age until its expiry
is taken (the model's reading, log 15), and which condition of a list fails the check of the list.

Model's choices it rests on: log 15. -/
def Obligations.InterlockKept : Prop :=
  (∀ s t : State, InterlockLaw s → step s = .next t → InterlockLaw t) ∧
  (∀ (s : State) (k : Fin 48), inUse s k = true ↔ ∃ c : Fin 4,
    ((s.chan c).state = .armed ∨ (s.chan c).state = .starting ∨ (s.chan c).state = .running ∨
      (s.chan c).state = .jogging) ∧
    (((s.chan c).direction = .a ∧ k ∈ (s.chan c).cfg.listA) ∨ ((s.chan c).direction = .b ∧ k ∈ (s.chan c).cfg.listB))) ∧
  (∀ (s : State) (k : Fin 48),
    let q := s.ie.conditions[k.val]
    let passes := fun v : Half => match q.test with
      | .eq => v = q.operand
      | .ne => v ≠ q.operand
      | .lt => v.toInt < q.operand.toInt
      | .ge => q.operand.toInt ≤ v.toInt
      | .bitsSet => v &&& q.operand = q.operand
      | .bitsClear => v &&& q.operand = 0
    (inUse s k = false → (condTrue s k = true ↔
      q.valid = true ∧ ∃ v updated, (s.pm.points[q.point.val]).state = .valid v updated ∧ passes v ∧
        (q.limit = 0 ∨ min 65535 (s.now - updated) ≤ q.limit))) ∧
    (inUse s k = true → (condTrue s k = true ↔
      q.valid = true ∧ ∃ v updated, (s.pm.points[q.point.val]).state = .valid v updated ∧ passes v))) ∧
  (∀ (s : State) (l : List (Fin 48)),
    (firstFalse s l = none ↔ ∀ k ∈ l, condTrue s k = true) ∧
    ∀ k : Fin 48, firstFalse s l = some k ↔
      condTrue s k = false ∧ ∃ pre post, l = pre ++ k :: post ∧ ∀ j ∈ pre, condTrue s j = true)

/-- R19, R31, R42 to R45: the egress queues keep their order, their bounds and their slot places.

R43: a new place goes behind every place of its class or a lower class number. -/
def Obligations.QueuesKept : Prop :=
  (∀ s t : State, QueueLaw s → step s = .next t → QueueLaw t) ∧
  ∀ (p : Place) (l : List Place), l.Pairwise (fun x y => x.cls ≤ y.cls) →
    insertPlace p l = (l.filter fun x => decide (x.cls ≤ p.cls)) ++ p :: l.filter fun x => decide (p.cls < x.cls)

/-- R36, R37: every buffer's reference count is the number of its holders, and the buffers without one are the free
list. -/
def Obligations.PoolKept : Prop :=
  ∀ s t : State, PoolLaw s → step s = .next t → PoolLaw t

/-- R110, R113, R116, R117: the Scene Expander keeps its law.

R117: the order of the Delayed Action List, by due time, recall order and action index, and the place a new entry takes in
it. -/
def Obligations.ScenesKept : Prop :=
  (∀ s t : State, SceneLaw s.sx → step s = .next t → SceneLaw t.sx) ∧
  ∀ order : Fin 4 → Nat,
    (∀ a b : Delayed, before order a b = true ↔
      (a.due < b.due ∨ (a.due = b.due ∧ (order a.slot < order b.slot ∨
        (order a.slot = order b.slot ∧ a.action < b.action))))) ∧
    ∀ (a : Delayed) (l : List Delayed), l.Pairwise (fun x y => before order y x = false) →
      insertDelayed order a l = (l.filter fun x => !before order a x) ++ a :: l.filter fun x => before order a x

/-- R78, R80, R82: the Load Budget Unit keeps its lists, its account and its limits: the Shed List holds the shed loads,
each once, by priority and shed order, and the Admission List the drawing ones, in INRUSH or ON, each once; the demand of every load is
that of its state and type; and each sum is within its effective limit while its OVERCOMMIT flag is clear.

R124, R131: a load is bound to a channel exactly when that channel is valid and names it; the motor load of a valid
channel draws exactly while the channel is STARTING, RUNNING, JOGGING or STOPPING. -/
def Obligations.BudgetKept : Prop :=
  (∀ s t : State, BudgetLaw s → step s = .next t → BudgetLaw t) ∧
  ∀ l : Load, l.drawing = true ↔ (l.state = .inrush ∨ l.state = .on)

/-- R168: the Notice Queue holds at most 16 notices, its mark 0, 1 or 2, and one more sets the lost flag of the newest.

R33: no counter passes 65535. -/
def Obligations.NoticesAndCountersKept : Prop :=
  (∀ s t : State, NoticeLaw s.mr → step s = .next t → NoticeLaw t.mr) ∧
  (∀ s t : State, CounterLaw s → step s = .next t → CounterLaw t) ∧
  (∀ (l : List Notice) (n : Notice), l.length < 16 → enqueueNotice l n = l ++ [n]) ∧
  (∀ (l : List Notice) (last n : Notice), 15 ≤ l.length →
    enqueueNotice (l ++ [last]) n = l ++ [{ last with lost := true }]) ∧
  ∀ n : Nat, n ≤ 65535 → bump n = min 65535 (n + 1)

/-- R65, R162, R163: the own zone changes only at a power-on reset, to the strap value or 0, and while unassigned. -/
def Obligations.OwnZoneKept : Prop :=
  ∀ (c : Instr) (s t : State), exec c s = .next t →
    t.mr.ownZone = s.mr.ownZone ∨ s.mr.ownZone = 0 ∨
      ∃ pins, c = .powerOnReset pins ∧ t.mr.ownZone = zoneOfStraps pins.straps

/-! ### Frames and the pool -/

/-- R1, R2, R4, R5: the bytes of a frame the Z24 builds and of its check; its fields read back as given, its length is
9 + N, and its check is good.

R1, R2, R4: where the fields of any frame stand, a number of two bytes being high byte first.

R22, R26: a place sends the stored frame with its own hop budget in byte 5, its rewrite group in byte 2 if it
has one, and a good check. -/
def Obligations.FramesReadBack : Prop :=
  (∀ (kind : Fin 16) (cls : Fin 4) (t : DestType) (b1 b2 own : Byte) (hop : BitVec 4) (p : List Byte), p.length ≤ 22 →
    let f := buildFrame kind cls t b1 b2 own hop p
    let type := match t with
      | .device => 0
      | .group => 1
      | .zoneAll => 2
      | .shipAll => 3
    f = sealFrame ([byteOf (16 * kind.val + 4 * cls.val + type), b1, b2, own, 0, hop.zeroExtend 8, byteOf p.length] ++ p) ∧
      f.length = 9 + p.length ∧ frameKind f = kind ∧ frameClass f = cls ∧ frameType f = t ∧ byteAt f 1 = b1 ∧
      byteAt f 2 = b2 ∧ frameOrigin f = ⟨own, 0⟩ ∧ frameHop f = hop ∧ frameLen f = p.length ∧ framePayload f = p ∧
      checkGood f = true) ∧
  (∀ (f : List Byte) (hop : BitVec 4) (rewrite : Option Byte), f.length = 9 + frameLen f →
    let g := lineBytes f hop rewrite
    g.length = f.length ∧ checkGood g = true ∧ byteAt g 5 = hop.zeroExtend 8 ∧
      byteAt g 2 = rewrite.getD (byteAt f 2) ∧
      ∀ i, i < 7 + frameLen f → i ≠ 2 → i ≠ 5 → byteAt g i = byteAt f i) ∧
  (∀ body : List Byte,
    let bits := body.flatMap fun b => (List.range 8).map fun i => b.getLsbD (7 - i)
    let check := bits.foldl (fun (r : Half) bit => if r.msb != bit then (r <<< 1) ^^^ 0x1021 else r <<< 1) 0xFFFF
    sealFrame body = body ++ [check.extractLsb' 8 8, check.extractLsb' 0 8]) ∧
  (∀ f : List Byte,
    (frameKind f).val = (byteAt f 0).toNat / 16 ∧ (frameClass f).val = (byteAt f 0).toNat / 4 % 4 ∧
    (frameType f = .device ↔ (byteAt f 0).toNat % 4 = 0) ∧ (frameType f = .group ↔ (byteAt f 0).toNat % 4 = 1) ∧
    (frameType f = .zoneAll ↔ (byteAt f 0).toNat % 4 = 2) ∧ (frameType f = .shipAll ↔ (byteAt f 0).toNat % 4 = 3) ∧
    frameOrigin f = ⟨byteAt f 3, byteAt f 4⟩ ∧ (frameHop f).toNat = (byteAt f 5).toNat % 16 ∧
    frameLen f = (byteAt f 6).toNat ∧ framePayload f = (f.drop 7).take (byteAt f 6).toNat ∧
    frameOf f = (if f.length < 7 then f else f.take (9 + (byteAt f 6).toNat)) ∧
    (checkGood f = true ↔ f.drop (7 + frameLen f) = (sealFrame (f.take (7 + frameLen f))).drop
      (f.take (7 + frameLen f)).length) ∧
    ∀ i, (halfAt f i).toNat = 256 * (byteAt f i).toNat + (byteAt f (i + 1)).toNat) ∧
  ∀ n : Nat, bytes2 n = [byteOf (n / 256), byteOf n] ∧ bytes3 n = [byteOf (n / 65536), byteOf (n / 256), byteOf n]

/-- R38: a request for a buffer is granted exactly while the free count is at least the taker's number, and a
grant takes one buffer off the free list. A reception, which asks for 5, holds its buffer alone, with its arrival.

R6, R17, R24: what a frame end stores in the buffer and its status record.

R37, R47: the release of a reference lowers the count by one; the last one puts the buffer on the free list and is
reported to LBU and to MR; several are released in their order.

Model's choices it rests on: log 8, 18. -/
def Obligations.PoolGrantsAndReturns : Prop :=
  (∀ (s : State) (least : Nat), 1 ≤ least →
    (s.pool.freeCount < least → s.takeBuffer least = none) ∧
    (least ≤ s.pool.freeCount → ∃ b, (s.buf b).free = true ∧
      s.takeBuffer least = some (b, s.modBuf b fun x => { x with free := false, refs := 0 }) ∧
      (s.modBuf b fun x => { x with free := false, refs := 0 }).pool.freeCount + 1 = s.pool.freeCount)) ∧
  (∀ (s : State) (b : Fin 48),
    (2 ≤ (s.buf b).refs → s.dropRef b = s.modBuf b fun x => { x with refs := x.refs - 1 }) ∧
    ((s.buf b).refs = 1 → s.dropRef b =
      { s with pool :=
        { bufs := upd s.pool.bufs b fun x => { x with free := true, refs := 0 }
          riseLbu := s.pool.riseLbu + 1, riseMr := s.pool.riseMr + 1 } })) ∧
  (∀ (s : State) (b : Fin 48) (l : List (Fin 48)), s.dropRefs [] = s ∧ s.dropRefs (b :: l) = (s.dropRef b).dropRefs l) ∧
  (∀ (s : State) (p : Port),
    (s.pool.freeCount < 5 → s.takeReception p = (⟨none⟩, s)) ∧
    (5 ≤ s.pool.freeCount → ∃ b, (s.buf b).free = true ∧ s.takeReception p =
      (⟨some b⟩, s.modBuf b fun x => { x with free := false, refs := 1, status := ⟨false, false, false, .port p⟩ }))) ∧
  ∀ (s : State) (b : Fin 48) (f : List Byte) (good tooLong aborted : Bool),
    s.storeFrame b f good tooLong aborted =
      s.modBuf b fun x => { x with bytes := f.take 31, status := ⟨good, tooLong, aborted, x.status.arrival⟩ }

/-! ### Trunk ports -/

/-- R20: TRUNK_FRAME_START. A frame start is given a buffer while at least 5 are free, else the frame is dropped
whole and counted.

R17, R21: TRUNK_FRAME_START before the frame under way is complete. That frame, of which the bytes `cut` have arrived,
ends there: too long when its byte 6 exceeded 22, else cut short, each counted and its buffer returned; one dropped
whole ends uncounted. The start mark is then a frame start of its own.

Model's choices it rests on: log 4, 8, 26. -/
def Obligations.TrunkFrameStarts : Prop :=
  (∀ (s : State) (t : Trunk) (cut : List Byte), (s.trunk t).rx = none →
    (5 ≤ s.pool.freeCount → ∃ b, (s.buf b).free = true ∧ exec (.trunkFrameStart t cut) s = .next
      ((s.modBuf b fun x => { x with free := false, refs := 1, status := ⟨false, false, false, .port t.port⟩ }).modTrunk
        t fun p => { p with rx := some ⟨some b⟩ })) ∧
    (s.pool.freeCount < 5 → exec (.trunkFrameStart t cut) s = .next
      (s.modTrunk t fun p =>
        { p with rx := some ⟨none⟩, counters := { p.counters with noBuffer := bump p.counters.noBuffer } }))) ∧
  (∀ (s : State) (t : Trunk) (cut : List Byte),
    (∀ b, (s.trunk t).rx = some ⟨some b⟩ →
      (7 ≤ cut.length → 22 < frameLen cut →
        exec (.trunkFrameStart t cut) s = exec (.trunkFrameStart t)
          (((s.storeFrame b (frameOf cut) false true false).modTrunk t fun p =>
            { p with rx := none, counters := { p.counters with longOrAborted := bump p.counters.longOrAborted } }).dropRef
              b)) ∧
      (cut.length < 7 ∨ (frameLen cut ≤ 22 ∧ cut.length < 9 + frameLen cut) →
        exec (.trunkFrameStart t cut) s = exec (.trunkFrameStart t)
          (((s.storeFrame b (frameOf cut) false false false).modTrunk t fun p =>
            { p with rx := none, counters := { p.counters with badCheck := bump p.counters.badCheck } }).dropRef b))) ∧
    ((s.trunk t).rx = some ⟨none⟩ →
      exec (.trunkFrameStart t cut) s = exec (.trunkFrameStart t) (s.modTrunk t fun p => { p with rx := none })))

/-- R20: TRUNK_FRAME_END of a frame that was dropped whole: the reception ends and nothing is counted or stored; with no
reception it does nothing.

R18, R21: TRUNK_FRAME_END of a good frame on a link that is UP. The frame is stored and the silence timer starts
again; a BEAT's buffer returns, and a frame of another kind passes to the tail of FE's hold list.

R21: TRUNK_FRAME_END of a frame that is too long, cut short, or of a bad check: counted, and its buffer
returned; the link state stands.

R18, R21, R167, R169: TRUNK_FRAME_END of a good frame on a link that is DOWN: the same, and the link comes UP; the entry
to UP is followed by a try to send a restart reply that is pending for the link, and by a notice try, both after the
frame's buffer has been disposed of.

Model's choices it rests on: log 2, 4, 6, 7. -/
def Obligations.TrunkFrameEnds : Prop :=
  (∀ (s : State) (t : Trunk) (bytes : List Byte),
    ((s.trunk t).rx = some ⟨none⟩ → exec (.trunkFrameEnd t bytes) s = .next (s.modTrunk t fun p => { p with rx := none })) ∧
    ((s.trunk t).rx = none → exec (.trunkFrameEnd t bytes) s = .next s)) ∧
  (∀ (s : State) (t : Trunk) (b : Fin 48) (bytes : List Byte), (s.trunk t).rx = some ⟨some b⟩ →
    bytes.length = 9 + frameLen bytes → frameLen bytes ≤ 22 → checkGood bytes = true → (s.trunk t).link = .up →
    let u := (s.modBuf b fun x =>
      { x with bytes := bytes, status := ⟨true, false, false, x.status.arrival⟩ }).modTrunk t fun p =>
        { p with rx := none, silence := some (s.now + 100)
                 counters := { p.counters with good := bump p.counters.good } }
    (frameKind bytes ≠ 0 →
      exec (.trunkFrameEnd t bytes) s = .next { u with fe := { s.fe with hold := s.fe.hold ++ [⟨b, t.port⟩] } }) ∧
    (frameKind bytes = 0 → exec (.trunkFrameEnd t bytes) s = .next (u.dropRef b))) ∧
  (∀ (s : State) (t : Trunk) (b : Fin 48) (bytes : List Byte), (s.trunk t).rx = some ⟨some b⟩ →
    (7 ≤ bytes.length → 22 < frameLen bytes → exec (.trunkFrameEnd t bytes) s = .next
      (((s.storeFrame b (frameOf bytes) false true false).modTrunk t fun p =>
        { p with rx := none, counters := { p.counters with longOrAborted := bump p.counters.longOrAborted } }).dropRef
          b)) ∧
    (bytes.length < 7 ∨ (frameLen bytes ≤ 22 ∧ bytes.length < 9 + frameLen bytes) ∨
        (frameLen bytes ≤ 22 ∧ bytes.length = 9 + frameLen bytes ∧ checkGood bytes = false) →
      exec (.trunkFrameEnd t bytes) s = .next
        (((s.storeFrame b (frameOf bytes) false false false).modTrunk t fun p =>
          { p with rx := none, counters := { p.counters with badCheck := bump p.counters.badCheck } }).dropRef b))) ∧
  (∀ (s : State) (t : Trunk) (b : Fin 48) (bytes : List Byte), (s.trunk t).rx = some ⟨some b⟩ →
    bytes.length = 9 + frameLen bytes → frameLen bytes ≤ 22 → checkGood bytes = true →
    (s.trunk t).link = .down →
    let u := (s.modBuf b fun x =>
      { x with bytes := bytes, status := ⟨true, false, false, x.status.arrival⟩ }).modTrunk t fun p =>
        { p with rx := none, link := .up, silence := some (s.now + 100)
                 counters := { p.counters with good := bump p.counters.good } }
    let v : State := if frameKind bytes = 0 then u.dropRef b
      else { u with fe := { s.fe with hold := s.fe.hold ++ [⟨b, t.port⟩] } }
    ((∀ p : Port, s.mr.pendingReply.map PendingReply.port = some p → p ≠ t.port) →
      exec (.trunkFrameEnd t bytes) s = .next (State.noticeTry { v with mr := { s.mr with waitUp := false } })) ∧
    (s.mr.pendingReply.map PendingReply.port = some t.port → exec (.trunkFrameEnd t bytes) s =
      .next (State.noticeTry { v.replyTry with mr := { v.replyTry.mr with waitUp := false } })))

/-- R18, R19: SILENCE_TIMER_EXPIRY. The port enters DOWN: its queue is emptied, each place's reference released, a
transmission ends at once uncounted, and the beat timer starts.

R8, R23: BEAT_TIMER_EXPIRY. A BEAT of class 3, type SHIP_ALL, the own zone and device 0 as origin, hop budget 1
and N = 0 goes on the line, with no buffer and no place.

Model's choices it rests on: log 2. -/
def Obligations.TrunkTimers : Prop :=
  (∀ (s : State) (t : Trunk) (d : Nat), (s.trunk t).silence = some d →
    exec (.silenceTimerExpiry t) s = .next
      (({ s with now := max s.now d }.modTrunk t fun p =>
        { p with link := .down, silence := none, tx := none, beat := some (max s.now d + 20)
                 queue := { p.queue with places := [] } }).dropRefs (s.trunk t).queue.buffers)) ∧
  (∀ (s : State) (t : Trunk) (d : Nat), (s.trunk t).beat = some d →
    exec (.beatTimerExpiry t) s = .next ({ s with now := max s.now d }.modTrunk t fun p =>
      { p with beat := none, tx := some ⟨.beat, sealFrame [0x0F, 0, 0, s.mr.ownZone, 0, 1, 0]⟩ }))

/-- R22, R23: TRUNK_TRANSMIT_COMPLETE of a BEAT or a frame. The transmission is counted; a frame's place is removed, wherever it stands,
with its reference; then the head of the queue is begun, or with none the beat timer starts.

Model's choices it rests on: log 2, 6. -/
def Obligations.TrunkTransmissionCompletes : Prop :=
  ∀ (s : State) (t : Trunk),
    (∀ bytes, (s.trunk t).tx = some ⟨.beat, bytes⟩ → (s.trunk t).queue.places = [] →
      exec (.trunkTransmitComplete t) s = .next (s.modTrunk t fun p =>
        { p with tx := none, beat := some (s.now + 20)
                 counters := { p.counters with transmitted := bump p.counters.transmitted } })) ∧
    (∀ bytes a cls hop r n rest, (s.trunk t).tx = some ⟨.beat, bytes⟩ →
      (s.trunk t).queue.places = ⟨.buffer a cls hop r, n⟩ :: rest →
      exec (.trunkTransmitComplete t) s = .next (s.modTrunk t fun p =>
        { p with tx := some ⟨.buffer a, lineBytes (s.buf a).bytes hop none⟩, beat := none
                 counters := { p.counters with transmitted := bump p.counters.transmitted } })) ∧
    (∀ b bytes, (s.trunk t).tx = some ⟨.buffer b, bytes⟩ →
      (s.trunk t).queue.places.filter (fun x => !x.holds b) = [] →
      exec (.trunkTransmitComplete t) s = .next ((s.modTrunk t fun p =>
        { p with tx := none, beat := some (s.now + 20), queue := { p.queue with places := [] }
                 counters := { p.counters with transmitted := bump p.counters.transmitted } }).dropRef b)) ∧
    (∀ b bytes a cls hop r n rest, (s.trunk t).tx = some ⟨.buffer b, bytes⟩ →
      (s.trunk t).queue.places.filter (fun x => !x.holds b) = ⟨.buffer a cls hop r, n⟩ :: rest →
      exec (.trunkTransmitComplete t) s = .next ((s.modTrunk t fun p =>
        { p with tx := some ⟨.buffer a, lineBytes (s.buf a).bytes hop none⟩, beat := none
                 queue := { p.queue with places := ⟨.buffer a cls hop r, n⟩ :: rest }
                 counters := { p.counters with transmitted := bump p.counters.transmitted } }).dropRef b))

/-! ### The Zone Port -/

/-- R24, R25, R31: ZONE_FRAME_START. In NORMAL a frame start is given a buffer while at least 5 are free, else the
frame is dropped whole and counted; while FAULTED nothing is received or counted.

R27: ARBITRATION_LOST. The port stops driving and receives the frame on the line; the frame stays in the shifter
with its attempt count.

R28: BIT_ERROR below the eighth. The attempt is abandoned and counted in the shifter, and the port receives.

Model's choices it rests on: log 5, 8, 26. -/
def Obligations.ZoneReceives : Prop :=
  (∀ s : State, s.zp.rx = none → s.zp.sending = false →
    (s.zp.segment = .normal → 5 ≤ s.pool.freeCount → ∃ b, (s.buf b).free = true ∧ exec .zoneFrameStart s = .next
      ((s.modBuf b fun x => { x with free := false, refs := 1, status := ⟨false, false, false, .port .zone⟩ }).modZone
        fun z => { z with rx := some ⟨some b⟩, lineIdle := false })) ∧
    (s.zp.segment = .normal → s.pool.freeCount < 5 → exec .zoneFrameStart s = .next (s.modZone fun z =>
      { z with rx := some ⟨none⟩, lineIdle := false
               counters := { z.counters with noBuffer := bump z.counters.noBuffer } })) ∧
    (s.zp.segment = .faulted → exec .zoneFrameStart s = .next (s.modZone fun z => { z with lineIdle := false }))) ∧
  (∀ s : State, s.zp.sending = true →
    (5 ≤ s.pool.freeCount → ∃ b, (s.buf b).free = true ∧ exec .arbitrationLost s = .next
      ((s.modBuf b fun x => { x with free := false, refs := 1, status := ⟨false, false, false, .port .zone⟩ }).modZone
        fun z => { z with rx := some ⟨some b⟩, sending := false })) ∧
    (s.pool.freeCount < 5 → exec .arbitrationLost s = .next (s.modZone fun z =>
      { z with rx := some ⟨none⟩, sending := false
               counters := { z.counters with noBuffer := bump z.counters.noBuffer } }))) ∧
  (∀ (s : State) (x : Shifter), s.zp.sending = true → s.zp.shifter = some x → x.attempts + 1 < 8 →
    (5 ≤ s.pool.freeCount → ∃ b, (s.buf b).free = true ∧ exec .bitError s = .next
      ((s.modBuf b fun y => { y with free := false, refs := 1, status := ⟨false, false, false, .port .zone⟩ }).modZone
        fun z => { z with rx := some ⟨some b⟩, sending := false
                          shifter := some { x with attempts := x.attempts + 1 } })) ∧
    (s.pool.freeCount < 5 → exec .bitError s = .next (s.modZone fun z =>
      { z with rx := some ⟨none⟩, sending := false, shifter := some { x with attempts := x.attempts + 1 }
               counters := { z.counters with noBuffer := bump z.counters.noBuffer } })))

/-- R25: ZONE_FRAME_END. A frame cut short is aborted, then comes too long, then a bad check: each is counted and its
buffer returned. A good frame is counted; a BEAT's buffer returns, and a frame of another kind passes to FE's hold
list.

R20, R25: ZONE_FRAME_END of a frame that was dropped whole: the reception ends and nothing is counted or stored; with no
reception it does nothing.

Model's choices it rests on: log 4. -/
def Obligations.ZoneFrameEnds : Prop :=
  (∀ (s : State) (bytes : List Byte),
    (s.zp.rx = some ⟨none⟩ → exec (.zoneFrameEnd bytes) s = .next (s.modZone fun z => { z with rx := none })) ∧
    (s.zp.rx = none → exec (.zoneFrameEnd bytes) s = .next s)) ∧
  ∀ (s : State) (b : Fin 48) (bytes : List Byte), s.zp.rx = some ⟨some b⟩ →
    (bytes.length < 7 ∨ bytes.length < 9 + frameLen bytes → exec (.zoneFrameEnd bytes) s = .next
      (((s.storeFrame b (frameOf bytes) false (decide (7 ≤ bytes.length ∧ 22 < frameLen bytes)) true).modZone fun z =>
        { z with rx := none, counters := { z.counters with longOrAborted := bump z.counters.longOrAborted } }).dropRef
          b)) ∧
    (bytes.length = 9 + frameLen bytes → 22 < frameLen bytes → exec (.zoneFrameEnd bytes) s = .next
      (((s.storeFrame b bytes false true false).modZone fun z =>
        { z with rx := none, counters := { z.counters with longOrAborted := bump z.counters.longOrAborted } }).dropRef
          b)) ∧
    (bytes.length = 9 + frameLen bytes → frameLen bytes ≤ 22 → checkGood bytes = false →
      exec (.zoneFrameEnd bytes) s = .next
        (((s.storeFrame b bytes false false false).modZone fun z =>
          { z with rx := none, counters := { z.counters with badCheck := bump z.counters.badCheck } }).dropRef b)) ∧
    (bytes.length = 9 + frameLen bytes → frameLen bytes ≤ 22 → checkGood bytes = true →
      let u := (s.modBuf b fun x =>
        { x with bytes := bytes, status := ⟨true, false, false, x.status.arrival⟩ }).modZone fun z =>
          { z with rx := none, counters := { z.counters with good := bump z.counters.good } }
      (frameKind bytes ≠ 0 →
        exec (.zoneFrameEnd bytes) s = .next { u with fe := { s.fe with hold := s.fe.hold ++ [⟨b, .zone⟩] } }) ∧
      (frameKind bytes = 0 → exec (.zoneFrameEnd bytes) s = .next (u.dropRef b)))

/-- R24, R26, R45, R141: ZONE_LINE_IDLE in NORMAL with nothing on the line. A frame still in the shifter is tried
first; an empty shifter is loaded from the head of the queue with attempt count 0, a slot place leaving its queue and
its slot, which moves a start from QUEUED to SENT; with neither, the line is idle.

R24, R25: ZONE_LINE_IDLE before the frame under way is complete. That frame, of which the bytes `cut` have arrived, is
aborted, with too long when its byte 6 had arrived and exceeded 22; it is counted and its buffer returned, while one
dropped whole ends uncounted. The line is then idle with nothing on it.

Model's choices it rests on: log 4, 5. -/
def Obligations.LineIdleBeginsAttempt : Prop :=
  (∀ (s : State) (cut : List Byte), s.zp.segment = .normal → s.zp.lineDominant = false → s.zp.sending = false →
    s.zp.rx = none →
    (s.zp.shifter.isSome = true →
      exec (.zoneLineIdle cut) s = .next (s.modZone fun z => { z with lineIdle := false, sending := true })) ∧
    (s.zp.shifter = none → s.zp.queue.places = [] →
      exec (.zoneLineIdle cut) s = .next (s.modZone fun z => { z with lineIdle := true })) ∧
    (∀ b cls hop r n rest, s.zp.shifter = none → s.zp.queue.places = ⟨.buffer b cls hop r, n⟩ :: rest →
      exec (.zoneLineIdle cut) s = .next (s.modZone fun z =>
        { z with lineIdle := false, sending := true
                 shifter := some ⟨.buffer b, lineBytes (s.buf b).bytes hop r, 0⟩ })) ∧
    (∀ c n rest k, s.zp.shifter = none → s.zp.queue.places = ⟨.slot c, n⟩ :: rest → (s.chan c).command = some k →
      exec (.zoneLineIdle cut) s = .next ((s.modZone fun z =>
        { z with lineIdle := false, sending := true, queue := { z.queue with places := rest }
                 shifter := some ⟨.slot c k.code, buildFrame 6 0 .device s.mr.ownZone k.device s.mr.ownZone s.fe.hopBudget
                   [match k.code with
                     | .startA => 1
                     | .startB => 2
                     | .stop => 3
                     | .halt => 4], 0⟩ }).modChan c fun x =>
          { x with command := none
                   phase := if (k.code = .startA ∨ k.code = .startB) ∧ x.state = .starting ∧ x.phase = .queued then
                     .sent else x.phase }))) ∧
  (∀ (s : State) (cut : List Byte), s.zp.lineDominant = false → s.zp.sending = false →
    (∀ b, s.zp.rx = some ⟨some b⟩ → (cut.length < 7 ∨ cut.length < 9 + frameLen cut) →
      exec (.zoneLineIdle cut) s = exec .zoneLineIdle
        (((s.storeFrame b (frameOf cut) false (decide (7 ≤ cut.length ∧ 22 < frameLen cut)) true).modZone fun z =>
          { z with rx := none, counters := { z.counters with longOrAborted := bump z.counters.longOrAborted } }).dropRef
            b)) ∧
    (s.zp.rx = some ⟨none⟩ →
      exec (.zoneLineIdle cut) s = exec .zoneLineIdle (s.modZone fun z => { z with rx := none })))

/-- R29, R46, R101, R103, R140, R142: ZONE_ATTEMPT_COMPLETE. The frame leaves the shifter and is counted; a frame from
a buffer gives up its place and its reference. A LEVEL_SET of the part's own at level 0 clears the waiting-channel mark
of its load, and when none is left for that channel its START is written; at another level, or
for a load that is not marked, it does no more than a forwarded frame. A completed START of a channel in STARTING phase SENT raises the
enable output and starts its start timer, and the inrush timer of a motor load that waits for it; one of a channel
elsewhere, a STOP or a HALT changes nothing else.

R12, R28, R101, R103, R140, R143: the eighth BIT_ERROR, with the reception it begins. The frame is dropped and counted,
and notice TX_FAILED with subject 2 and bytes 0 and 2 as value is queued; a buffer gives up its place and its reference,
and a LEVEL_SET of the part's own is reported as at completion. The START of a channel in STARTING phase SENT takes it to
FAULT with cause NO_START and a HALT in its slot, a release event; of any other DRIVE command nothing is written again.

Model's choices it rests on: log 2, 5, 6, 7, 12, 17, 22, 26. -/
def Obligations.AttemptEnds : Prop :=
  (∀ (s : State) (x : Shifter), s.zp.sending = true → s.zp.shifter = some x →
    let z1 := fun z : ZonePort => { z with
      sending := false, shifter := none, counters := { z.counters with transmitted := bump z.counters.transmitted } }
    (∀ b, x.origin = .buffer b →
      let u := (s.modZone fun z =>
        { z1 z with queue := { z.queue with places := z.queue.places.filter fun y => !y.holds b } }).dropRef b
      let done := exec .zoneAttemptComplete s
      (s.reportsNothing b x.bytes → done = .next u.current) ∧
      (∀ n c, s.reportsMark b x.bytes n c → u.markOpen n → done = .next (u.unmarked n).current)) ∧
    (∀ c code, x.origin = .slot c code →
      ((code = .stop ∨ code = .halt ∨ (s.chan c).state ≠ .starting ∨ (s.chan c).phase ≠ .sent) →
        exec .zoneAttemptComplete s = .next (s.current.modZone z1)) ∧
      ((code = .startA ∨ code = .startB) → (s.chan c).state = .starting → (s.chan c).phase = .sent →
        let n := (s.chan c).cfg.motorLoad
        let raised := fun y : Channel => { y with
          enable := true, timers := { y.timers with start := some (s.now + y.cfg.timings.startTimeout) } }
        ((s.lbu.loads[n.val]).state = .inrush → (s.lbu.loads[n.val]).inrushTimer = .waiting →
          exec .zoneAttemptComplete s = .next
            (({ s with lbu := { s.lbu with loads := upd s.lbu.loads n fun l =>
                { l with inrushTimer := .running (s.now + l.cfg.inrushTime * 10) } } }.current.modZone z1).modChan c
              raised)) ∧
        ((s.lbu.loads[n.val]).state ≠ .inrush ∨ (s.lbu.loads[n.val]).inrushTimer ≠ .waiting →
          exec .zoneAttemptComplete s = .next ((s.current.modZone z1).modChan c raised))))) ∧
  (∀ (s : State) (x : Shifter), s.zp.sending = true → s.zp.shifter = some x → x.attempts = 7 →
    let r := s.takeReception .zone
    let z1 := fun z : ZonePort => { z with
      rx := some r.1, sending := false, shifter := none
      counters := { z.counters with
        noBuffer := if r.1.buf = none then bump z.counters.noBuffer else z.counters.noBuffer
        txFailed := bump z.counters.txFailed } }
    let failed := fun u : State =>
      u.noting .txFailed 2 ((byteAt x.bytes 0).toNat * 256 + (byteAt x.bytes 2).toNat)
    (∀ b, x.origin = .buffer b → (s.buf b).free = false →
      let u := (r.2.modZone fun z =>
        { z1 z with queue := { z.queue with places := z.queue.places.filter fun y => !y.holds b } }).dropRef b
      let done := exec .bitError s
      (s.reportsNothing b x.bytes → done = .next (failed u.current).noticeTry) ∧
      (∀ n c, s.reportsMark b x.bytes n c → u.markOpen n →
        done = .next (failed (u.unmarked n).current).noticeTry)) ∧
    (∀ c code, x.origin = .slot c code →
      ((code = .stop ∨ code = .halt ∨ (s.chan c).state ≠ .starting ∨ (s.chan c).phase ≠ .sent) →
        exec .bitError s = .next (failed (r.2.current.modZone z1)).noticeTry) ∧
      ((code = .startA ∨ code = .startB) → (s.chan c).state = .starting → (s.chan c).phase = .sent →
        let u := failed (r.2.modZone z1)
        let v := u.faulting c .noStart
        u.faultOpen c .noStart → v.shedFree →
        exec .bitError s = .next (v.ends (released := true) (noticed := true)))))

/-- R30, R31: LINE_GOES_DOMINANT and LINE_GOES_RECESSIVE. In NORMAL a dominant line runs the stuck timer; while
FAULTED a recessive line runs the recovery timer.

Model's choices it rests on: log 2, 5. -/
def Obligations.LineLevels : Prop :=
  ∀ s : State,
    (s.zp.lineDominant = false → exec .lineGoesDominant s = .next (s.modZone fun z =>
      { z with lineDominant := true, lineIdle := false, recovery := none
               stuck := if z.segment = .normal then some (s.now + 100) else none })) ∧
    (s.zp.lineDominant = true → exec .lineGoesRecessive s = .next (s.modZone fun z =>
      { z with lineDominant := false, stuck := none
               recovery := if z.segment = .faulted then some (s.now + 500) else none }))

/-- R12, R30, R47: STUCK_TIMER_EXPIRY. The segment is FAULTED and emptied: a reception, if one is in progress, is abandoned,
and counted when it held a buffer; the shifter, the queue and all four slots are emptied, and notice SEGMENT_FAULT is
queued for the zone.

R32, R104: RECOVERY_TIMER_EXPIRY. The segment is NORMAL and emptied in the same way, its stuck timer running on a dominant
line alone, every drawing SWITCHED or DIMMED load is due again, and LBU makes a level try.

R84, R129, R131, R148: at both, every active channel goes to FAULT with cause SEGMENT, in ascending number, with no HALT;
the release of its motor load, if it holds one, makes a release event. Here the whole state for any number of active
channels, and what becomes of the channels.

Model's choices it rests on: log 2, 5, 6, 7, 12, 17, 25, 27. -/
def Obligations.SegmentFaultsAndRecovers : Prop :=
  (∀ (s : State) (d : Nat), s.zp.stuck = some d →
    let u := s.segmentEmptied
    let base : State := { u with
      now := max s.now d
      zp := { u.zp with
        segment := .faulted, stuck := none
        recovery := if s.zp.lineDominant then none else some (max s.now d + 500) } }
    let v := (base.faultingAll (fun c => (s.chan c).state.active) .segment).noting .segmentFault 2 0
    let released := decide (∃ c : Fin 4, s.drives c = true)
    ((released = true → v.shedFree) → exec .stuckTimerExpiry s =
      .next (v.ends (released := released) (noticed := true))) ∧
    ∃ t, exec .stuckTimerExpiry s = .next t ∧ t.zp.segment = .faulted ∧ s.faultsActive t .segment) ∧
  (∀ (s : State) (d : Nat), s.zp.recovery = some d →
    let u := s.segmentEmptied
    let base : State := { u with
      now := max s.now d
      zp := { u.zp with
        segment := .normal, recovery := none
        stuck := if s.zp.lineDominant then some (max s.now d + 100) else none } }
    let v := (base.faultingAll (fun c => (s.chan c).state.active) .segment).levelsDue
    let released := decide (∃ c : Fin 4, s.drives c = true)
    ((released = true → v.shedFree) → exec .recoveryTimerExpiry s =
      .next (v.ends (released := released) (due := true)
        (noticed := decide (∃ c : Fin 4, (s.chan c).state.active = true)))) ∧
    ∃ t, exec .recoveryTimerExpiry s = .next t ∧ t.zp.segment = .normal ∧ s.faultsActive t .segment)

/-! ### Rises, level tries and notice tries -/

/-- R41, R102: LBU_FREE_COUNT_RISE. LBU takes one report of a rise and makes a level try.

R8, R9, R102: a level try takes the due loads in ascending number. Below 5 free buffers, while unassigned or FAULTED, or
at 44 buffer places, it ends at the first of them, and the flags wait. Else a LEVEL_SET is offered at class 1, of type
DEVICE for the load's device in the own zone, with the load's output, G and last fade as its payload, the flag is cleared,
and the try goes on over the rest; on a free line its attempt begins at once. With no load due it does nothing.

Model's choices it rests on: log 6, 8, 18. -/
def Obligations.LevelTries : Prop :=
  (∀ (s : State) (n : Nat), s.pool.riseLbu = n + 1 →
    exec .lbuFreeCountRise s = .next (State.levelTry { s with pool := { s.pool with riseLbu := n } })) ∧
  (∀ s : State, (∀ m : Fin 96, (s.lbu.loads[m.val]).due = false) → s.levelTry = s) ∧
  (∀ (s : State) (n : Fin 96), (s.lbu.loads[n.val]).due = true →
    (∀ m : Fin 96, m < n → (s.lbu.loads[m.val]).due = false) →
    let l := s.lbu.loads[n.val]
    (s.mr.ownZone = 0 ∨ s.pool.freeCount < 5 ∨ s.zp.segment = .faulted ∨ 44 ≤ s.zp.queue.bufferPlaces →
      s.levelTry = s) ∧
    (s.mr.ownZone ≠ 0 → 5 ≤ s.pool.freeCount → s.zp.segment = .normal → s.zp.queue.bufferPlaces < 44 →
      s.zp.ready →
      let f := buildFrame 2 1 .device s.mr.ownZone l.cfg.device s.mr.ownZone s.fe.hopBudget
        ([byteOf l.cfg.output.val] ++ bytes2 l.granted ++ [byteOf l.lastFade])
      ∃ b, (s.buf b).free = true ∧ s.levelTry = State.levelTry
        { (s.modBuf b fun x =>
            { x with free := false, refs := 1, status := ⟨true, false, false, .internal⟩, bytes := f }) with
          lbu := { s.lbu with loads := upd s.lbu.loads n fun l => { l with due := false } }
          zp := s.zp.taking b 1 s.fe.hopBudget none f }))

/-- R41, R167, R169: MR_FREE_COUNT_RISE. MR takes one report of a rise, tries a pending restart reply and then a
notice.

R8, R12, R39, R168, R169: a notice try with 1 to 16 notices queued, the transmitters of the links that are UP being at
work or their queues empty. The next frame for the head notice goes to the lowest valid manager at or above its mark, as a
NOTICE to that device, or with no valid manager and mark 0 to all. Without a free buffer it waits; with both links DOWN it
waits for an entry to UP; else one buffer takes a place on each link that is UP, and the mark goes on past that manager, or,
none being left, the notice leaves the queue and the try goes on with the next at mark 0. A head whose mark has no manager
left is done without a frame. While the head waits for an entry to UP, and with no notice queued, a try does nothing.

R12: the notice kind and code of every cause.

Model's choices it rests on: log 6, 8, 18. -/
def Obligations.NoticeTries : Prop :=
  (∀ (s : State) (n : Nat), s.pool.riseMr = n + 1 →
    exec .mrFreeCountRise s = .next (State.noticeTry (State.replyTry { s with pool := { s.pool with riseMr := n } }))) ∧
  (∀ s : State, (s.mr.notices = [] ∨ s.mr.waitUp = true) → s.noticeTry = s) ∧
  (∀ (s : State) (n : Notice) (rest : List Notice), s.mr.notices = n :: rest → rest.length ≤ 15 →
    s.mr.waitUp = false →
    let popped : Management := { s.mr with notices := rest, headMark := 0 }
    (s.mr.headMark ≠ 0 → (∀ i : Fin 2, s.mr.headMark ≤ i.val → (s.mr.managers[i.val]).valid = false) →
      s.noticeTry = State.noticeTry { s with mr := popped }) ∧
    (∀ dest : Option (Fin 2),
      (match dest with
        | none => s.mr.headMark = 0 ∧ ∀ i : Fin 2, (s.mr.managers[i.val]).valid = false
        | some i => s.mr.headMark ≤ i.val ∧ (s.mr.managers[i.val]).valid = true ∧
          ∀ j : Fin 2, s.mr.headMark ≤ j.val → j < i → (s.mr.managers[j.val]).valid = false) →
      s.tpa.ready → s.tpb.ready →
      let payload := [byteOf n.cause.codes.1, byteOf n.subject, byteOf n.cause.codes.2] ++ bytes2 n.value ++
        [if n.lost then 1 else 0]
      let frame := match dest with
        | none => buildFrame 9 2 .shipAll 0 0 s.mr.ownZone s.fe.hopBudget payload
        | some i => buildFrame 9 2 .device (s.mr.managers[i.val]).origin.zone (s.mr.managers[i.val]).origin.device
            s.mr.ownZone s.fe.hopBudget payload
      let sent : Management := match dest with
        | none => popped
        | some i => if ∃ j : Fin 2, i < j ∧ (s.mr.managers[j.val]).valid = true then { s.mr with headMark := i.val + 1 }
            else popped
      let put := fun (b : Fin 48) (p : TrunkPort) => if p.link = .up then p.taking b 2 s.fe.hopBudget frame else p
      (s.pool.freeCount = 0 → s.noticeTry = s) ∧
      (1 ≤ s.pool.freeCount → s.tpa.link = .down → s.tpb.link = .down →
        s.noticeTry = { s with mr := { s.mr with waitUp := true } }) ∧
      (1 ≤ s.pool.freeCount → (s.tpa.link = .up ∨ s.tpb.link = .up) → ∃ b, (s.buf b).free = true ∧
        s.noticeTry = State.noticeTry
          { (s.modBuf b fun x =>
              { x with free := false, status := ⟨true, false, false, .internal⟩, bytes := frame
                       refs := if s.tpa.link = .up ∧ s.tpb.link = .up then 2 else 1 }) with
            mr := sent, tpa := put b s.tpa, tpb := put b s.tpb }))) ∧
  ([Cause.unauthorized, .notConfigured, .estopOpen, .excluded, .trip, .interlock, .busy, .armExpired, .budget, .notOwner,
      .stillPresent, .foreignDrive, .controllerRest, .fault].map Cause.codes = (List.range 14).map fun k => (0, k)) ∧
  ([Cause.shed, .restored, .clamped, .refused, .overcommit, .motorLoad].map Cause.codes =
    (List.range 6).map fun k => (1, k)) ∧
  ([Cause.sceneReplaced, .scenePreempted, .sceneUndefined, .sceneDelayLost].map Cause.codes =
    (List.range 4).map fun k => (2, k)) ∧
  ([Cause.txFailed, .segmentFault].map Cause.codes = (List.range 2).map fun k => (3, k))

/-! ### The Forwarding Engine and the Point Monitor -/

/-- R52, R64: CLASSIFY_FRAME of a trunk frame that is spent, or that an assigned Z24 finds looped: FE's hold is
released and nothing else is done.

R54, R64, R163: CLASSIFY_FRAME of a frame for device 0 of the own zone, and while unassigned of a MGMT_REQ for device 0 of
zone 0. The block that owns the frame's kind takes its source and payload, as the command for that kind does, FE's hold is
released, and the frame is not routed.

R54, R167: one that carries a RESTART which MR takes has the effect of the command, with which FE's hold has ended.

R9, R10, R54: at step 3 a frame of any kind but LEVEL_REQ, SCENE, MOTION, DRIVE and MGMT_REQ is handed to no block, and
one of the first four is discarded whose length is not its kind's, or that names a load above 95, a scene above 127, a
channel above 3, a verb of 0 or above 9, or a code other than 8 to 12. Which frame each of their commands stands for; that
a spent or looped one, and while unassigned every one but a MGMT_REQ, has no effect.

Model's choices it rests on: log 3, 6, 7. -/
def Obligations.ClassifyConsumes : Prop :=
  (∀ (s : State) (h : Held) (rest : List Held), s.fe.hold = h :: rest → h.port ≠ .zone →
    let f := (s.buf h.buf).bytes
    (frameHop f = 0 ∨ (s.mr.ownZone ≠ 0 ∧ (frameOrigin f).zone = s.mr.ownZone)) →
    exec .classifyFrame s = .next ({ s.current with fe := { s.fe with hold := rest } }.dropRef h.buf)) ∧
  (∀ (s : State) (h : Held) (rest : List Held), s.fe.hold = h :: rest →
    let f := (s.buf h.buf).bytes
    let u : State := { s with fe := { s.fe with hold := rest } }
    let src : Source := ⟨h.port, frameHop f, frameOrigin f⟩
    let restarts := frameKind f = 7 ∧ (framePayload f).length = 2 ∧ byteAt (framePayload f) 0 = 10 ∧ s.takesRequest src
    discarded s src = false → (s.mr.ownZone ≠ 0 ∨ frameKind f = 7) →
    frameType f = .device → byteAt f 1 = s.mr.ownZone → byteAt f 2 = 0 → frameKind f ≠ 4 →
    (¬ restarts →
      exec .classifyFrame s = .next ((u.handOff (frameKind f) src (framePayload f)).dropRef h.buf)) ∧
    (restarts → exec .classifyFrame s = exec (.restart src (byteAt (framePayload f) 1)) u)) ∧
  (∀ (s : State) (kind : Fin 16) (src : Source) (p : List Byte), s.hears src →
    ((kind ≠ 1 ∧ kind ≠ 3 ∧ kind ≠ 5 ∧ kind ≠ 6 ∧ kind ≠ 7) ∨
      (kind = 1 ∧ (p.length ≠ 4 ∨ 95 < (byteAt p 0).toNat)) ∨
      (kind = 3 ∧ (p.length ≠ 1 ∨ 127 < (byteAt p 0).toNat)) ∨
      (kind = 5 ∧ (p.length ≠ 2 ∨ 3 < (byteAt p 0).toNat ∨ byteAt p 1 = 0 ∨ 9 < (byteAt p 1).toNat)) ∨
      (kind = 6 ∧ (p.length ≠ 1 ∨ (byteAt p 0).toNat < 8 ∨ 12 < (byteAt p 0).toNat))) →
    s.handOff kind src p = s.current) ∧
  (∀ (s : State) (src : Source),
    (discarded s src = true ↔ src.port ≠ .zone ∧
      (src.hop = 0 ∨ (s.mr.ownZone ≠ 0 ∧ src.origin.zone = s.mr.ownZone))) ∧ (s.assigned = true ↔ s.mr.ownZone ≠ 0)) ∧
  (∀ (s : State) (kind : Fin 16) (src : Source) (p : List Byte),
    (discarded s src = true ∨ (s.mr.ownZone = 0 ∧ kind ≠ 7)) → s.handOff kind src p = s) ∧
  (∀ (s : State) (src : Source) (p : List Byte) (ch : Byte),
    (exec (.levelReq src p) s = .next (s.handOff 1 src p) ∧ exec (.scene src p) s = .next (s.handOff 3 src p)) ∧
    (exec (.armA src ch) s = .next (s.handOff 5 src [ch, 1]) ∧ exec (.armB src ch) s = .next (s.handOff 5 src [ch, 2]) ∧
      exec (.runContinue src ch) s = .next (s.handOff 5 src [ch, 3]) ∧
      exec (.runFinish src ch) s = .next (s.handOff 5 src [ch, 4]) ∧
      exec (.stop src ch) s = .next (s.handOff 5 src [ch, 5]) ∧ exec (.cancel src ch) s = .next (s.handOff 5 src [ch, 6]) ∧
      exec (.jogA src ch) s = .next (s.handOff 5 src [ch, 7]) ∧ exec (.jogB src ch) s = .next (s.handOff 5 src [ch, 8]) ∧
      exec (.motionClear src ch) s = .next (s.handOff 5 src [ch, 9])) ∧
    (exec (.moving src) s = .next (s.handOff 6 src [8]) ∧ exec (.atRest src) s = .next (s.handOff 6 src [9]) ∧
      exec (.atLimit src) s = .next (s.handOff 6 src [10]) ∧ exec (.stalled src) s = .next (s.handOff 6 src [11]) ∧
      exec (.faulted src) s = .next (s.handOff 6 src [12])))

/-- R57, R58: the first entry that fits decides; when none fits, the default by arrival and address.

R56: an entry matches when it is valid and each of its pattern fields is ANY or fits the frame. -/
def Obligations.RouteDecides : Prop :=
  (∀ (s : State) (p : Port) (f : List Byte),
    (∃ i : Fin 64, (s.fe.routes[i.val]).fits p f = true ∧ (∀ j : Fin 64, j < i → (s.fe.routes[j.val]).fits p f = false) ∧
      routeOf s p f = ((s.fe.routes[i.val]).action, (s.fe.routes[i.val]).rewrite)) ∨
    ((∀ i : Fin 64, (s.fe.routes[i.val]).fits p f = false) ∧
      routeOf s p f =
        (if p = .zone then (if frameType f ≠ .shipAll ∧ byteAt f 1 = s.mr.ownZone then .drop else .uplink)
          else if frameType f ≠ .shipAll ∧ byteAt f 1 = s.mr.ownZone then .deliver
          else if frameType f = .shipAll then .copy else .pass, none))) ∧
  (∀ (r : Route) (p : Port) (f : List Byte), r.fits p f = true ↔
    r.valid = true ∧ (r.ingress = .trunk → p = .a ∨ p = .b) ∧ (r.ingress = .zone → p = .zone) ∧
    (∀ k, r.kind = some k → frameKind f = k) ∧ (∀ t, r.dtype = some t → frameType f = t) ∧
    (∀ z d, r.value = some (z, d) → frameType f ≠ .shipAll ∧ byteAt f 1 = z ∧
      (frameType f = .device ∨ frameType f = .group → byteAt f 2 = d)) ∧
    ∀ z, r.originZone = some z → byteAt f 3 = z)

/-- R59 to R62: CLASSIFY_FRAME of a frame that is routed, by the action and the rewrite that decide it. Each link that the
action names takes a place with the hop budget of R60, a pass of hop budget 1 not being offered; the zone queue takes one
with the arrival hop budget and, for a GROUP frame, the rewrite group. A link that is DOWN, a FAULTED segment and 44 buffer
places refuse theirs and the others stand. The buffer is held by the places accepted, and without one it is free. A
transmitter at rest, and a free zone line, begin the frame at once.

R51, R53, R54, R70 to R73: the same of a STATE frame, all the effects of which (the statement on STATE frames) are settled
before it is routed, but for the notice try, which comes after.

R64: CLASSIFY_FRAME while unassigned. A trunk frame that is no MGMT_REQ for device 0 of zone 0 is passed to the other
link with its hop budget less 1, if that leaves one and the link is UP; a frame from the segment is dropped.

Model's choices it rests on: log 2, 6, 7, 12, 15, 16, 17, 28. -/
def Obligations.DefaultRoutes : Prop :=
  (∀ (s : State) (h : Held) (rest : List Held), s.fe.hold = h :: rest →
    let f := (s.buf h.buf).bytes
    s.hears ⟨h.port, frameHop f, frameOrigin f⟩ →
    ¬ (frameType f = .device ∧ byteAt f 1 = s.mr.ownZone ∧ byteAt f 2 = 0) →
    (frameKind f = 4 → s.observable f) → (s.buf h.buf).free = false →
    s.tpa.ready → s.tpb.ready → s.zp.ready →
    let u : State := { (if frameKind f = 4 then s.observing f else s) with fe := { s.fe with hold := rest } }
    let v := u.settled (frameKind f = 4 && s.observingReleases f) (frameKind f = 4 && s.observingSheds f)
    let action := (routeOf s h.port f).1
    let passes := (action == .pass || action == .copy) && (h.port == .zone || frameHop f != 1)
    let toA := (action == .uplink || (passes && h.port != .a)) && s.tpa.link == .up
    let toB := (action == .uplink || (passes && h.port != .b)) && s.tpb.link == .up
    let toZone := (action == .deliver || action == .copy) && s.zp.segment == .normal &&
      decide (v.zp.queue.bufferPlaces < 44)
    let hop := if h.port = .zone ∨ action = .uplink then s.fe.hopBudget else frameHop f - 1
    let group := if frameType f = .group then (routeOf s h.port f).2 else none
    let placed : State := { (v.modBuf h.buf fun x => { x with refs := x.refs + toA.toNat + toB.toNat + toZone.toNat }) with
      tpa := if toA then s.tpa.taking h.buf (frameClass f) hop f else s.tpa
      tpb := if toB then s.tpb.taking h.buf (frameClass f) hop f else s.tpb
      zp := if toZone then v.zp.taking h.buf (frameClass f) (frameHop f) group f else v.zp }
    exec .classifyFrame s = .next ((if frameKind f = 4 ∧ (s.observingNotes f || u.restores v) then placed.noticeTry
      else placed).dropRef h.buf)) ∧
  (∀ (s : State) (h : Held) (rest : List Held), s.fe.hold = h :: rest → s.mr.ownZone = 0 →
    let f := (s.buf h.buf).bytes
    ¬ (frameKind f = 7 ∧ frameType f = .device ∧ byteAt f 1 = 0 ∧ byteAt f 2 = 0) → (s.buf h.buf).refs = 1 →
    s.tpa.ready → s.tpb.ready →
    let put := fun p : TrunkPort => p.taking h.buf (frameClass f) (frameHop f - 1) f
    let u : State := { s.current with fe := { s.fe with hold := rest } }
    (h.port = .zone → exec .classifyFrame s = .next (u.dropRef h.buf)) ∧
    (h.port = .a → exec .classifyFrame s =
      .next (if 2 ≤ frameHop f ∧ s.tpb.link = .up then { u with tpb := put s.tpb } else u.dropRef h.buf)) ∧
    (h.port = .b → exec .classifyFrame s =
      .next (if 2 ≤ frameHop f ∧ s.tpa.link = .up then { u with tpa := put s.tpa } else u.dropRef h.buf)))

/-- R51, R53, R70, R71: CLASSIFY_FRAME of any STATE frame, consumed or routed. Every point it feeds is VALID with the value
at its position and age 0, and every other point is as it was, whatever conditions and mode follow from it.

R53, R54, R70 to R73: CLASSIFY_FRAME of a STATE frame for device 0 of the own zone, and of one that is routed by action DROP.
Every point it feeds is VALID with the value at its position and age 0, every other point is as it was, and the frame is
discarded; first with every condition in use still holding, and the source mode by hand, or by a point not fed or fed a
value that names no other mode; then in every case.

R72, R127, R154, R156: the points that the frame feeds, in ascending number, tell the channels of the conditions on them that
fail, any number of each, in ascending number: notice INTERLOCK of the first condition of the channel's list that is not
true; an ARMED channel is IDLE, a start not yet SENT is withdrawn, a release event, and a motion under way takes the stop
sequence, cause INTERLOCK.

R72, R75, R84, R87 to R89: after them, when the frame feeds the point that the selector names a value of 0 to 3 that is not
the present mode, that becomes the mode, in the same event. The limit-decrease walk sheds its loads, any number; the
OVERCOMMIT flags are set where a sum is still above its limit, each that was clear with its notice; and a limit that has
risen makes a release event.

Model's choices it rests on: log 2, 6, 7, 12, 15, 16, 17, 28. -/
def Obligations.StateFrameFeedsPoints : Prop :=
  (∀ (s : State) (h : Held) (rest : List Held), s.fe.hold = h :: rest →
    let f := (s.buf h.buf).bytes
    s.hears ⟨h.port, frameHop f, frameOrigin f⟩ → frameKind f = 4 →
    ∃ t, exec .classifyFrame s = .next t ∧ t.pm = (s.fedBy f).pm ∧ t.fe = { s.fe with hold := rest }) ∧
  ∀ (s : State) (h : Held) (rest : List Held), s.fe.hold = h :: rest →
    let f := (s.buf h.buf).bytes
    s.hears ⟨h.port, frameHop f, frameOrigin f⟩ → frameKind f = 4 →
    ((frameType f = .device ∧ byteAt f 1 = s.mr.ownZone ∧ byteAt f 2 = 0) ∨ (routeOf s h.port f).1 = .drop) →
    let t : State := { s.fedBy f with fe := { s.fe with hold := rest } }
    (s.steady f → (∀ x : Fin 4, t.calm x) → exec .classifyFrame s = .next (t.current.dropRef h.buf)) ∧
    (s.observable f →
      let u : State := { s.observing f with fe := { s.fe with hold := rest } }
      exec .classifyFrame s = .next ((u.ends (released := s.observingReleases f) (due := s.observingSheds f)
        (noticed := s.observingNotes f)).dropRef h.buf))

/-! ### The Load Budget Unit -/

/-- R92, R93: LEVEL_REQ for an invalid load, for a MOTOR load, and for a shed load, whose Q alone is replaced, by the shaped
target for a DIMMED load and by 1000 for a SWITCHED one; at Q 0 the load leaves the Shed List and becomes OFF.

Model's choices it rests on: log 3, 6, 7. -/
def Obligations.LevelRequestNotJudged : Prop :=
  ∀ (s : State) (src : Source) (p : List Byte) (n : Fin 96), s.hears src → p.length = 4 →
    (byteAt p 0).toNat = n.val →
    let l := s.lbu.loads[n.val]
    let asked := min (halfAt p 1).toNat 1000
    (l.cfg.valid = false → exec (.levelReq src p) s = .next s.current) ∧
    (l.cfg.valid = true → l.cfg.type = .motor →
      exec (.levelReq src p) s = .next (s.current.noting .motorLoad n.val asked).noticeTry) ∧
    (l.cfg.valid = true → l.cfg.type ≠ .motor → l.state = .shed → 1 ≤ asked →
      exec (.levelReq src p) s = .next (State.current
        { s with lbu := { s.lbu with loads := upd s.lbu.loads n fun l =>
            { l with requested := if l.cfg.type = .dimmed then max asked l.cfg.minLevel else 1000 } } })) ∧
    (l.cfg.valid = true → l.cfg.type ≠ .motor → l.state = .shed → asked = 0 →
      exec (.levelReq src p) s = .next (State.current
        { s with lbu := { s.lbu with
            loads := upd s.lbu.loads n fun l => { l with requested := 0, state := .off }
            shedList := s.lbu.shedList.filter (· != n) } }))

/-- R93, R94: LEVEL_REQ for a DIMMED load: a resend of 0 to an OFF load; a falling request with a fade, whose K waits
for the end of the fade; and a falling request with fade 0, which commits at once, is a release event, and turns the
load OFF at 0.

Model's choices it rests on: log 2, 3, 6, 12, 17. -/
def Obligations.LevelRequestFalling : Prop :=
  ∀ (s : State) (src : Source) (p : List Byte) (n : Fin 96), s.hears src → p.length = 4 →
    (byteAt p 0).toNat = n.val →
    let l := s.lbu.loads[n.val]
    let asked := min (halfAt p 1).toNat 1000
    let t := if 1 ≤ asked ∧ asked < l.cfg.minLevel then l.cfg.minLevel else asked
    let fade := (byteAt p 3).toNat
    l.cfg.valid = true → l.cfg.type = .dimmed → l.state ≠ .shed →
    (l.state = .off → t = 0 → exec (.levelReq src p) s = .next (State.levelTry (State.current
      { s with lbu := { s.lbu with loads := upd s.lbu.loads n fun l =>
          { l with granted := 0, requested := 0, lastFade := fade, due := true } } }))) ∧
    (l.state = .on → t < l.committed → fade ≠ 0 → exec (.levelReq src p) s = .next (State.levelTry (State.current
      { s with lbu := { s.lbu with loads := upd s.lbu.loads n fun l =>
          { l with granted := t, requested := t, lastFade := fade, due := true
                   fade := .falling (s.now + fade * 100) } } }))) ∧
    (l.state = .on → t < l.committed → fade = 0 → t ≠ 0 →
      let u : State := { s with lbu := { s.lbu with loads := upd s.lbu.loads n fun l =>
        { l with granted := t, requested := t, lastFade := 0, due := true, committed := t, fade := .stopped
                 demand := (l.cfg.full * t + 999) / 1000 } } }
      u.shedFree → exec (.levelReq src p) s = .next (u.ends (released := true) (due := true))) ∧
    (l.state = .on → t < l.committed → fade = 0 → t = 0 →
      let u : State := { s with lbu := { s.lbu with
        admission := s.lbu.admission.filter (· != n)
        loads := upd s.lbu.loads n fun l =>
          { l with granted := 0, requested := 0, lastFade := 0, due := true, committed := 0, fade := .stopped
                   state := .off, demand := 0 } } }
      u.shedFree → exec (.levelReq src p) s = .next (u.ends (released := true) (due := true)))

/-- R81, R93, R95, R101: LEVEL_REQ for a DIMMED load, rising. A request that fits, and every one for a load with F = 0, is
granted and commits at once; an OFF load becomes ON, joins the Admission List, and loses its waiting-channel mark; one that
does not fit is clamped to the room, or refused when that is below the minimum level or below K, ON or OFF alike; and an OFF
load of a tripped branch is refused.

R80, R81, R86: what C_b, T and the effective limits are, and when a change of demand fits. R89: when an OVERCOMMIT flag is
cleared, as every event leaves the flags.

Model's choices it rests on: log 2, 3, 6, 7, 12. -/
def Obligations.LevelRequestRising : Prop :=
  (∀ (u : Budget) (b : Fin 4),
    let mode : Fin 4 := match u.mode with
      | .shore => 0
      | .genOne => 1
      | .genTwo => 2
      | .inverter => 3
    u.commit b = ((List.finRange 96).map fun n =>
      let l := u.loads[n.val]
      if l.cfg.valid = true ∧ l.cfg.branch = b then l.demand else 0).sum ∧
    u.total = u.commit 0 + u.commit 1 + u.commit 2 + u.commit 3 ∧
    u.effBranch b = (if u.trip[b.val] = true then 0 else (u.limits[mode.val]).branch[b.val]) ∧
    u.effTotal = (u.limits[mode.val]).total) ∧
  (∀ (u : Budget) (n : Fin 96) (d : Nat),
    let l := u.loads[n.val]
    (l.cfg.valid = true ∨ l.demand = 0) →
    (u.fits n d = true ↔
      u.commit l.cfg.branch + d ≤ u.effBranch l.cfg.branch + l.demand ∧ u.total + d ≤ u.effTotal + l.demand)) ∧
  (∀ u : Budget,
    u.clearOver = { u with overBranch := u.clearOver.overBranch, overTotal := u.clearOver.overTotal } ∧
    (∀ b : Fin 4, u.clearOver.overBranch[b.val] = true ↔
      u.overBranch[b.val] = true ∧ u.effBranch b < u.commit b) ∧
    (u.clearOver.overTotal = true ↔ u.overTotal = true ∧ u.effTotal < u.total)) ∧
  ∀ (s : State) (src : Source) (p : List Byte) (n : Fin 96), s.hears src → p.length = 4 →
    (byteAt p 0).toNat = n.val →
    let l := s.lbu.loads[n.val]
    let asked := min (halfAt p 1).toNat 1000
    let t := if 1 ≤ asked ∧ asked < l.cfg.minLevel then l.cfg.minLevel else asked
    let fade := (byteAt p 3).toNat
    let room := min (s.lbu.effBranch l.cfg.branch - (s.lbu.commit l.cfg.branch - l.demand))
      (s.lbu.effTotal - (s.lbu.total - l.demand))
    let granted := fun g : Nat =>
      let u : State := { s with lbu := { s.lbu with
        admission := if l.state = .off then s.lbu.admission ++ [n] else s.lbu.admission
        loads := upd s.lbu.loads n fun l =>
          { l with state := .on, committed := g, granted := g, requested := t, lastFade := fade, due := true
                   demand := (l.cfg.full * g + 999) / 1000
                   fade := if fade = 0 then .stopped else .rising (s.now + fade * 100) } } }
      if l.state = .off then u.unmarked n else u
    let fits := l.cfg.full = 0 ∨ s.lbu.fits n ((l.cfg.full * t + 999) / 1000) = true
    let refused := exec (.levelReq src p) s = .next (s.current.noting .refused n.val asked).noticeTry
    l.cfg.valid = true → l.cfg.type = .dimmed → l.committed ≤ t → (l.state = .off → t ≠ 0) →
    (l.state = .off → s.lbu.trip[l.cfg.branch.val] = true → refused) ∧
    (l.state = .on ∨ (l.state = .off ∧ s.lbu.trip[l.cfg.branch.val] = false) →
      (fits → (l.state = .off → s.markOpen n) →
        exec (.levelReq src p) s = .next ((granted t).ends (due := true))) ∧
      (¬ fits →
        let g := min t (room * 1000 / l.cfg.full)
        (g < l.cfg.minLevel ∨ g < l.committed → refused) ∧
        (l.cfg.minLevel ≤ g → l.committed ≤ g → (l.state = .off → s.markOpen n) →
          exec (.levelReq src p) s =
            .next (((granted g).noting .clamped n.val g).ends (due := true) (noticed := true)))))

/-- R97, R99, R101: LEVEL_REQ for a SWITCHED load that needs no shed walk: a resend; a switching on that fits, in INRUSH at I
or, with an inrush time of 0, ON at F at once, the load's waiting-channel mark cleared; a switching off, a release event;
and a refusal while the branch trip input is asserted.

Model's choices it rests on: log 2, 3, 6, 7, 12, 17. -/
def Obligations.LevelRequestSwitched : Prop :=
  ∀ (s : State) (src : Source) (p : List Byte) (n : Fin 96), s.hears src → p.length = 4 →
    (byteAt p 0).toNat = n.val →
    let l := s.lbu.loads[n.val]
    let asked := min (halfAt p 1).toNat 1000
    l.cfg.valid = true → l.cfg.type = .switched →
    ((l.state = .on ∨ l.state = .inrush) → 1 ≤ asked → exec (.levelReq src p) s = .next (State.levelTry (State.current
      { s with lbu := { s.lbu with loads := upd s.lbu.loads n fun l => { l with requested := 1000, due := true } } }))) ∧
    (l.state = .off → asked = 0 → exec (.levelReq src p) s = .next (State.levelTry (State.current
      { s with lbu := { s.lbu with loads := upd s.lbu.loads n fun l => { l with due := true } } }))) ∧
    (l.state = .off → 1 ≤ asked → s.lbu.trip[l.cfg.branch.val] = true →
      exec (.levelReq src p) s = .next (s.current.noting .refused n.val asked).noticeTry) ∧
    (l.state = .off → 1 ≤ asked → s.lbu.trip[l.cfg.branch.val] = false → s.markOpen n →
      s.lbu.fits n (if l.cfg.inrushTime = 0 then l.cfg.full else l.cfg.inrush) = true →
      exec (.levelReq src p) s = .next (State.ends (due := true) (State.unmarked
        { s with lbu := { s.lbu with
            admission := s.lbu.admission ++ [n]
            loads := upd s.lbu.loads n fun l =>
              { l with state := if l.cfg.inrushTime = 0 then .on else .inrush
                       demand := if l.cfg.inrushTime = 0 then l.cfg.full else l.cfg.inrush
                       granted := 1000, committed := 1000, requested := 1000, lastFade := 0, due := true
                       inrushTimer := if l.cfg.inrushTime = 0 then l.inrushTimer
                         else .running (s.now + l.cfg.inrushTime * 10) } } } n))) ∧
    ((l.state = .on ∨ l.state = .inrush) → asked = 0 →
      let u : State := { s with lbu := { s.lbu with
        admission := s.lbu.admission.filter (· != n)
        loads := upd s.lbu.loads n fun l =>
          { l with state := .off, demand := 0, granted := 0, committed := 0, requested := 0, lastFade := 0
                   inrushTimer := .stopped, due := true } } }
      u.shedFree → exec (.levelReq src p) s = .next (u.ends (released := true) (due := true)))

/-- R82, R83, R97, R98, R101: LEVEL_REQ to switch on a load that does not fit. The shed walk takes loads of lower
importance, by priority descending and newest first, each of its branch, and one of another branch while the total has a
deficit, until the load fits. Then they are shed into the Shed List, any number, and the request is admitted in the same
event, in INRUSH at I or, with an inrush time of 0, ON at F; when the walk ends before it fits, nothing is shed and the
request is refused.

Model's choices it rests on: log 2, 3, 6, 7, 12. -/
def Obligations.ShedWalkMakesRoom : Prop :=
  ∀ (s : State) (src : Source) (p : List Byte) (n : Fin 96), s.hears src → p.length = 4 →
    (byteAt p 0).toNat = n.val →
    let l := s.lbu.loads[n.val]
    let asked := min (halfAt p 1).toNat 1000
    let w := s.roomFor n l.cfg.asksFor none
    l.cfg.valid = true → l.cfg.type = .switched → l.state = .off → 1 ≤ asked →
    s.lbu.trip[l.cfg.branch.val] = false → s.lbu.fits n l.cfg.asksFor = false →
    s.lbu.walkable l.cfg.priority.val →
    (w.lbu.fits n l.cfg.asksFor = true → s.markOpen n →
      exec (.levelReq src p) s = .next (State.ends (due := true) (noticed := true) (State.unmarked
        { w with lbu := { w.lbu with
            admission := w.lbu.admission ++ [n]
            loads := upd w.lbu.loads n fun l =>
              { l.onAt (.running (s.now + l.cfg.inrushTime * 10)) with due := true } } } n))) ∧
    (w.lbu.fits n l.cfg.asksFor = false →
      exec (.levelReq src p) s = .next (s.current.noting .refused n.val asked).noticeTry)

/-- R84, R96: FADE_END. The end of a rising fade stops the timer; the end of a falling fade lowers K to G and D with it,
a release event, and at 0 turns the load OFF.

R84, R99: INRUSH_END. The load is ON at D = F, keeping its place on the Admission List; a release event.

Model's choices it rests on: log 2, 6, 12, 17. -/
def Obligations.FadeAndInrushEnd : Prop :=
  (∀ (s : State) (n : Fin 96) (d : Nat),
    let l := s.lbu.loads[n.val]
    let at_ : State := { s with now := max s.now d }
    (l.fade = .rising d → exec (.fadeEnd n) s = .next (State.current
      { at_ with lbu := { s.lbu with loads := upd s.lbu.loads n fun l => { l with fade := .stopped } } })) ∧
    (l.fade = .falling d → l.granted ≠ 0 →
      let u : State := { at_ with lbu := { s.lbu with loads := upd s.lbu.loads n fun l =>
        { l with fade := .stopped, committed := l.granted
                 demand := (l.cfg.full * l.granted + 999) / 1000 } } }
      u.shedFree → exec (.fadeEnd n) s = .next (u.ends (released := true))) ∧
    (l.fade = .falling d → l.granted = 0 →
      let u : State := { at_ with lbu := { s.lbu with
        admission := s.lbu.admission.filter (· != n)
        loads := upd s.lbu.loads n fun l => { l with fade := .stopped, committed := 0, demand := 0, state := .off } } }
      u.shedFree → exec (.fadeEnd n) s = .next (u.ends (released := true)))) ∧
  (∀ (s : State) (n : Fin 96) (d : Nat), (s.lbu.loads[n.val]).state = .inrush →
    (s.lbu.loads[n.val]).inrushTimer = .running d →
    let u : State := { s with
      now := max s.now d
      lbu := { s.lbu with loads := upd s.lbu.loads n fun l =>
        { l with inrushTimer := .stopped, state := .on, demand := l.cfg.full } } }
    u.shedFree → exec (.inrushEnd n) s = .next (u.ends (released := true)))

/-- R84, R85, R99, R101: the restore walk, here at an INRUSH_END. A load of a branch that is tripped is passed over, and
with no other load nothing is restored; the first of the others that does not fit ends the walk. Of one load that fits: it
leaves the Shed List for the Admission List, a DIMMED load ON at its requested level, a SWITCHED load in INRUSH at I or,
with an inrush time of 0, ON at F, its level due and notice RESTORED queued; and a mark it holds is cleared, the START of a
channel that waited for it alone being written. Of any number of loads, one after the other.

Model's choices it rests on: log 2, 6, 7, 12, 17. -/
def Obligations.ReleaseRestores : Prop :=
  ∀ (s : State) (n : Fin 96) (d : Nat), (s.lbu.loads[n.val]).state = .inrush →
    (s.lbu.loads[n.val]).inrushTimer = .running d →
    let u : State := { s with
      now := max s.now d
      lbu := { s.lbu with loads := upd s.lbu.loads n fun l =>
        { l with inrushTimer := .stopped, state := .on, demand := l.cfg.full } } }
    let tripped := fun m : Fin 96 => u.lbu.trip[((u.lbu.loads[m.val]).cfg.branch).val] = true
    let asks := fun m : Fin 96 =>
      let k := u.lbu.loads[m.val]
      if k.cfg.type = .dimmed then (k.cfg.full * k.requested + 999) / 1000
      else if k.cfg.inrushTime = 0 then k.cfg.full else k.cfg.inrush
    let back := fun m : Fin 96 => ({ u with lbu := { u.lbu.clearOver with
      shedList := u.lbu.shedList.filter (· != m), admission := u.lbu.admission ++ [m]
      loads := upd u.lbu.loads m fun k =>
        if k.cfg.type = .dimmed then
          { k with state := .on, granted := k.requested, committed := k.requested
                   demand := (k.cfg.full * k.requested + 999) / 1000, lastFade := 0, due := true }
        else if k.cfg.inrushTime = 0 then
          { k with state := .on, granted := 1000, committed := 1000, demand := k.cfg.full, lastFade := 0, due := true }
        else
          { k with state := .inrush, granted := 1000, committed := 1000, demand := k.cfg.inrush, lastFade := 0
                   due := true, inrushTimer := .running (max s.now d + k.cfg.inrushTime * 10) } } } : State)
    (∀ pre m rest, s.lbu.shedList = pre ++ m :: rest → (∀ x ∈ pre, tripped x) → ¬ tripped m →
      u.lbu.fits m (asks m) = false → exec (.inrushEnd n) s = .next u.current) ∧
    ((∀ x ∈ s.lbu.shedList, tripped x) → exec (.inrushEnd n) s = .next u.current) ∧
    (∀ pre m rest, s.lbu.shedList = pre ++ m :: rest → (∀ x ∈ pre ++ rest, tripped x) → ¬ tripped m →
      u.lbu.fits m (asks m) = true → (u.lbu.loads[m.val]).cfg.type ≠ .motor → (u.lbu.loads[m.val]).demand = 0 →
      u.markOpen m →
      exec (.inrushEnd n) s = .next (State.noticeTry (State.levelTry (((back m).noting .restored m.val
        (if (u.lbu.loads[m.val]).cfg.type = .dimmed then (u.lbu.loads[m.val]).requested else 1000)).unmarked m)))) ∧
    (u.shedFree →
      let t := u.current.restoring s.lbu.shedList
      exec (.inrushEnd n) s = .next (if t.lbu.shedList = s.lbu.shedList then t else t.levelTry.noticeTry))

/-- R82 to R84, R86, R90, R129, R131, R148: BRANCH_TRIP_ASSERTED. The effective limit is 0. Every load drawing on the branch
that is not bound to a channel is shed, any number, in ascending number, whatever its priority; and each active channel that
has its motor load on the branch, any number, goes to FAULT with cause BRANCH_TRIP, a HALT in its slot if its motion is under
way, and its motor load, if it holds it, is released, a release event.

R84, R91: BRANCH_TRIP_RELEASED. The branch has its limit again, a release event.

Model's choices it rests on: log 6, 7, 12, 13, 17, 23. -/
def Obligations.BranchTrips : Prop :=
  (∀ (s : State) (b : Fin 4), s.lbu.trip[b.val] = false →
    let on := fun x : Fin 4 => (s.chan x).state.active &&
      (s.lbu.loads[(s.chan x).cfg.motorLoad.val]).cfg.branch == b
    let u : State := { s with lbu := { s.lbu with trip := upd s.lbu.trip b fun _ => true } }
    let w := u.darkened b
    let v := w.faultingAll on .branchTrip
    let sheds := decide (∃ m : Fin 96, (s.lbu.loads[m.val]).cfg.branch = b ∧ (s.lbu.loads[m.val]).drawing = true ∧
      (s.lbu.loads[m.val]).bound = none)
    let released := decide (∃ c : Fin 4, on c = true ∧ s.drives c = true)
    ((∀ c : Fin 4, on c = true → s.faultOpen c .branchTrip) → (released = true → v.shedFree) →
      (∀ m : Fin 96, (s.lbu.loads[m.val]).cfg.branch = b → (s.lbu.loads[m.val]).drawing = true →
        (s.lbu.loads[m.val]).bound = none → (s.lbu.loads[m.val]).cfg.type ≠ .motor) →
      exec (.branchTripAsserted b) s =
        .next (v.ends (released := released) (due := sheds)
          (noticed := sheds || decide (∃ c : Fin 4, on c = true)))) ∧
    ∃ t, exec (.branchTripAsserted b) s = .next t ∧ t.lbu.trip = u.lbu.trip ∧ ∀ c : Fin 4, on c = true →
      (t.chan c).state = .fault ∧ (t.chan c).enable = false ∧ (t.chan c).faultCause = .branchTrip ∧
        (t.chan c).faultState = (s.chan c).state ∧ (t.chan c).owner = none ∧ (t.chan c).phase = .none ∧
        (t.chan c).timers = .stopped) ∧
  (∀ (s : State) (b : Fin 4), s.lbu.trip[b.val] = true →
    let u : State := { s with lbu := { s.lbu with trip := upd s.lbu.trip b fun _ => false } }
    u.shedFree → exec (.branchTripReleased b) s = .next (u.ends (released := true)))

/-! ### The Scene Expander -/

/-- R111 to R117: SCENE of a valid scene of one delayed action, every slot being FREE. The lowest slot takes the scene
and the next recall order, and holds one entry, due its delay after the recall. A scene that is not valid is
reported and nothing else happens.

R112, R113, R114, R116, R117: SCENE of a valid scene of one delayed action, for slot `i`: the slot that holds the scene,
a restart; else the lowest FREE slot; else, all being ACTIVE, the slot of the earliest recall order, with notice
SCENE_PREEMPTED. The slot's own entries and the entries of other slots for the action's load are removed, the new entry
takes its place in the order, and a slot left without an entry is FREE.

R114, R119: SCENE of a valid scene of one action of delay 0, every slot being FREE: the recall number goes on, and the
load takes the level request as from a LEVEL_REQ.

R115: SCENE of one delayed action for a SWITCHED load that is ON, 128 entries being left for other slots and loads:
notice SCENE_DELAY_LOST, the action is applied at once, and the slot is FREE again.

R112 to R117, R119: SCENE of a valid scene of any number of actions, for the slot that R112 chooses. The actions are walked in
ascending index order: one of delay 0 hands LBU its level request in its turn, one of delay 1 or more enters the list, or,
the list holding 128 entries, is reported with SCENE_DELAY_LOST and applied in its turn; a slot left without an entry is
FREE. Here for any actions, by the request that a LEVEL_REQ makes of LBU; and, with the whole next state, where each action
that is applied sends a level again.

R102, R111 to R117, R119, R161, R166: RECALL_SCENE of a valid scene does as SCENE does, for any scene, slots and entries, with
the reply's buffer held, and answers OK; of a scene that is not valid it answers NOT_STATE with its notice.

Model's choices it rests on: log 2, 3, 6, 7, 12, 17. -/
def Obligations.SceneRecalled : Prop :=
  (∀ (s : State) (src : Source) (p : List Byte) (n : Fin 128), s.hears src → p.length = 1 →
    (byteAt p 0).toNat = n.val →
    let r := s.sx.scenes[n.val]
    (r.valid = false → exec (.scene src p) s = .next (s.current.noting .sceneUndefined n.val 0).noticeTry) ∧
    (r.valid = true → r.count = 1 → (∀ i : Fin 4, s.sx.slots[i.val] = none) → s.sx.delayed = [] →
      let a := s.sx.action r.first
      a.delay ≠ 0 →
      exec (.scene src p) s = .next
        { s.current with sx := { s.sx with
            slots := upd s.sx.slots 0 fun _ => some ⟨n, s.sx.nextRecall⟩, nextRecall := s.sx.nextRecall + 1
            delayed := [⟨s.now + a.delay * 100, 0, r.first, a.load, a.level, a.fade⟩] } })) ∧
  (∀ (s : State) (src : Source) (p : List Byte) (n : Fin 128) (i : Fin 4), s.hears src → p.length = 1 →
    (byteAt p 0).toNat = n.val →
    let r := s.sx.scenes[n.val]
    let a := s.sx.action r.first
    let kept := s.sx.delayed.filter fun d => d.slot != i && d.load != a.load
    let slots := upd s.sx.slots i fun _ => some ⟨n, s.sx.nextRecall⟩
    let u := fun l : List Delayed =>
      { s with sx := { s.sx with
          nextRecall := s.sx.nextRecall + 1, delayed := l
          slots := mapIdx slots fun j x => if l.any fun d => d.slot == j then x else none } }
    let entered := u (insertDelayed (fun j => (slots[j.val]).elim 0 SceneSlot.order)
      ⟨s.now + a.delay * 100, i, r.first, a.load, a.level, a.fade⟩ kept)
    let first := (s.sx.slots[i.val]).isNone = true ∧ ∀ j : Fin 4, j < i → (s.sx.slots[j.val]).isSome = true
    let elsewhere := ∀ j : Fin 4, (s.sx.slots[j.val]).any (fun x => x.scene == n) = false
    r.valid = true → r.count = 1 → (∀ d ∈ s.sx.delayed, (s.sx.slots[d.slot.val]).isSome = true) →
    (a.delay ≠ 0 → kept.length < 128 →
      ((s.sx.slots[i.val]).any (fun x => x.scene == n) = true →
        (∀ j : Fin 4, j < i → (s.sx.slots[j.val]).any (fun x => x.scene == n) = false) →
        exec (.scene src p) s = .next entered.current) ∧
      (elsewhere → first → exec (.scene src p) s = .next entered.current) ∧
      (∀ old, elsewhere → (∀ j : Fin 4, (s.sx.slots[j.val]).isSome = true) → s.sx.slots[i.val] = some old →
        (∀ j : Fin 4, s.sx.order i ≤ s.sx.order j) → (∀ j : Fin 4, j < i → s.sx.order i < s.sx.order j) →
        exec (.scene src p) s = .next (entered.current.noting .scenePreempted old.scene.val n.val).noticeTry)) ∧
    (a.delay = 0 → (∀ j : Fin 4, s.sx.slots[j.val] = none) → a.load < 96 → a.level < 65536 → a.fade < 256 →
      exec (.scene src p) s = exec (.levelReq src ([byteOf a.load] ++ bytes2 a.level ++ [byteOf a.fade]))
        { s with sx := { s.sx with nextRecall := s.sx.nextRecall + 1 } }) ∧
    (∀ m : Fin 96, a.delay ≠ 0 → 128 ≤ kept.length → elsewhere → first → a.load = m.val → 1 ≤ a.level →
      (s.lbu.loads[m.val]).cfg.valid = true → (s.lbu.loads[m.val]).cfg.type = .switched →
      (s.lbu.loads[m.val]).state = .on →
      exec (.scene src p) s = .next (State.noticeTry (State.levelTry (State.noting (State.current
        { u kept with lbu := { s.lbu with loads := upd s.lbu.loads m fun l =>
            { l with requested := 1000, due := true } } }) .sceneDelayLost n.val r.first))))) ∧
  (∀ (s : State) (src : Source) (p : List Byte) (n : Fin 96), s.hears src → p.length = 4 → (byteAt p 0).toNat = n.val →
    exec (.levelReq src p) s =
      .next (s.event.levelRequest n (halfAt p 1).toNat (byteAt p 3).toNat).close) ∧
  (∀ (s : State) (n : Fin 128) (i : Fin 4), (s.sx.scenes[n.val]).valid = true → s.slotFor n i →
    (∀ d ∈ s.sx.delayed, (s.sx.slots[d.slot.val]).isSome = true) →
    let first := (s.sx.scenes[n.val]).first
    let count := (s.sx.scenes[n.val]).count
    let run := (List.range count).map (first + ·)
    let slots := upd s.sx.slots i fun _ => some ⟨n, s.sx.nextRecall⟩
    let ended := (s.sx.slots[i.val]).elim 0 fun x => x.scene.val
    let sx : SceneExpander := { s.sx with
      slots := slots, nextRecall := s.sx.nextRecall + 1
      delayed := s.sx.delayed.filter fun d => d.slot != i && run.all fun k => d.load != (s.sx.action k).load }
    let place := insertDelayed fun j => (slots[j.val]).elim 0 SceneSlot.order
    let entered := fun (x : SceneExpander) (k : Nat) =>
      let a := s.sx.action k
      { x with delayed := place ⟨s.now + a.delay * 100, i, k, a.load, a.level, a.fade⟩ x.delayed }
    let freed := fun x : SceneExpander =>
      { x with slots := mapIdx slots fun j y => if x.delayed.any fun d => d.slot == j then y else none }
    let asks := fun (e : Ev) (k : Nat) =>
      let a := s.sx.action k
      if h : a.load < 96 then e.levelRequest ⟨a.load, h⟩ a.level a.fade else e
    let recalled := fun u : State =>
      let chosen := if s.evicts n then u.event.notice .scenePreempted ended n.val else u.event
      let walked := run.foldl (fun (e : Ev) (k : Nat) =>
          if (s.sx.action k).delay = 0 then asks e k
          else if e.s.sx.delayed.length < 128 then { e with s := { e.s with sx := entered e.s.sx k } }
          else asks (e.notice .sceneDelayLost n.val k) k)
        { chosen with s := { chosen.s with sx := sx } }
      ({ walked with s := { walked.s with sx := freed walked.s.sx } } : Ev)
    let resent := run.foldl (fun (u : State) (k : Nat) =>
        if (s.sx.action k).delay = 0 then u.resent (s.sx.action k)
        else if u.sx.delayed.length < 128 then { u with sx := entered u.sx k }
        else (u.noting .sceneDelayLost n.val k).resent (s.sx.action k))
      { (if s.evicts n then s.noting .scenePreempted ended n.val else s) with sx := sx }
    let t : State := { resent with sx := freed resent.sx }.current
    let lost := 128 < sx.delayed.length + run.countP fun k => (s.sx.action k).delay != 0
    let sends := lost ∨ ∃ k ∈ run, (s.sx.action k).delay = 0
    let plain := sx.delayed.length ≤ 128 ∧
      ∀ k ∈ run, s.resends (s.sx.action k) ∨ ((s.sx.action k).delay ≠ 0 ∧ sx.delayed.length + count ≤ 128)
    (∀ (src : Source) (p : List Byte), s.hears src → p.length = 1 → (byteAt p 0).toNat = n.val →
      exec (.scene src p) s = .next (recalled s).close ∧
      (plain → exec (.scene src p) s =
        .next (t.ends (due := decide sends) (noticed := decide (lost ∨ s.evicts n))))) ∧
    (∀ (src : Source) (tag number : Byte), s.canAnswer src → number.toNat = n.val →
      (∃ b : Fin 48, (s.buf b).free = true ∧ exec (.recallScene src tag number) s = .next
        ((recalled (s.modBuf b fun x => { x with free := false, refs := 0 })).settle.s.repliedAt src.port b src.origin 7 tag
          .ok []).noticeTry) ∧
      (plain → AnswersWith s (.recallScene src tag number) src 7 tag .ok [] t (decide sends)))) ∧
  (∀ (s : State) (src : Source) (tag number : Byte) (n : Fin 128), s.canAnswer src → number.toNat = n.val →
    (s.sx.scenes[n.val]).valid = false →
    Answers s (.recallScene src tag number) src 7 tag .notState [] (s.noting .sceneUndefined n.val 0))

/-- R116, R118, R119: DUE_EVENT of the head of the Delayed Action List. The entry leaves the list, its slot is FREE when
the list holds no other entry of it, and the load takes the level request of its action, as from a LEVEL_REQ; an action
that names no load does no more. Each other ACTIVE slot holding an entry.

Model's choices it rests on: log 2, 3, 6. -/
def Obligations.EntryFallsDue : Prop :=
  ∀ (s : State) (d : Delayed) (rest : List Delayed), s.sx.delayed = d :: rest →
    (∀ i : Fin 4, i ≠ d.slot → (s.sx.slots[i.val]).isSome = true → (rest.any fun e => e.slot == i) = true) →
    let u : State := { s with
      now := max s.now d.due
      sx := { s.sx with
        delayed := rest
        slots := if (rest.any fun e => e.slot == d.slot) = true then s.sx.slots
          else upd s.sx.slots d.slot fun _ => none } }
    (∀ n : Fin 96, d.load = n.val →
      exec .dueEvent s = .next (u.event.levelRequest n d.level d.fade).close) ∧
    (96 ≤ d.load → exec .dueEvent s = .next u.current) ∧
    (∀ (src : Source) (p : List Byte), s.hears src → p.length = 4 → (byteAt p 0).toNat = d.load →
      (halfAt p 1).toNat = d.level → (byteAt p 3).toNat = d.fade → exec .dueEvent s = exec (.levelReq src p) u) ∧
    (s.resends ⟨d.load, d.level, d.fade, 0⟩ →
      exec .dueEvent s = .next (u.resent ⟨d.load, d.level, d.fade, 0⟩).current.levelTry)

/-! ### The Drive Supervisor -/

/-- R132: every MOTION verb for a channel that is OFF is refused with NOT_CONFIGURED, and one from an origin that is
not listed with UNAUTHORIZED. An origin is listed when it is one of the channel's consoles, and is a notice's value with
its zone in the high byte (R12).

R144: an indication from no channel's controller is reported with subject 255 and changes nothing else.

Model's choices it rests on: log 3, 6, 7. -/
def Obligations.MotionRefused : Prop :=
  (∀ (s : State) (src : Source) (ch : Byte) (c : Fin 4) (i : Instr), s.hears src → ch.toNat = c.val →
    i ∈ [Instr.armA src ch, .armB src ch, .runContinue src ch, .runFinish src ch, .stop src ch, .cancel src ch,
      .jogA src ch, .jogB src ch, .motionClear src ch] →
    ((s.chan c).state = .off →
      exec i s = .next (s.current.noting .notConfigured c.val (originValue src.origin)).noticeTry) ∧
    ((s.chan c).state ≠ .off → (s.chan c).listed src.origin = false →
      exec i s = .next (s.current.noting .unauthorized c.val (originValue src.origin)).noticeTry)) ∧
  (∀ (x : Channel) (o : Origin), (x.listed o = true ↔ o ∈ x.cfg.consoles) ∧
    originValue o = 256 * o.zone.toNat + o.device.toNat) ∧
  (∀ (s : State) (src : Source) (i : Instr), s.hears src →
    i ∈ [Instr.moving src, .atRest src, .atLimit src, .stalled src, .faulted src] →
    (src.origin.zone ≠ s.mr.ownZone ∨
      ∀ c : Fin 4, ¬ ((s.chan c).cfg.valid = true ∧ (s.chan c).cfg.controller = src.origin.device)) →
    exec i s = .next (s.current.noting .foreignDrive 255 (originValue src.origin)).noticeTry)

/-- R133, R134: ARM_A and ARM_B, all four checks passing. From IDLE the channel is ARMED in the verb's direction, for
its origin, with the arm timer running; from the owner in ARMED the direction is replaced and the timer restarted.

Model's choices it rests on: log 2, 3, 6, 15. -/
def Obligations.ArmPasses : Prop :=
  ∀ (s : State) (src : Source) (ch : Byte) (c : Fin 4) (d : Direction), s.takesMotion src ch c →
    s.ds.loopOpen = false →
    (∀ x : Fin 4, x ≠ c → s.ds.excludes c x = true → (s.chan x).state.active = false) →
    s.ds.trip[c.val] = false → (∀ k ∈ (s.chan c).list d, condTrue s k = true) →
    let arm : Instr := match d with
      | .a => .armA src ch
      | .b => .armB src ch
    ((s.chan c).state = .idle → exec arm s = .next (s.current.modChan c fun x =>
      { x with state := .armed, direction := d, mode := .run, owner := some src.origin, stopCause := .none
               timers := { x.timers with arm := some (s.now + x.cfg.timings.armWindow) } })) ∧
    ((s.chan c).state = .armed → (s.chan c).owner = some src.origin → exec arm s = .next (s.current.modChan c fun x =>
      { x with direction := d, timers := { x.timers with arm := some (s.now + x.cfg.timings.armWindow) } }))

/-- R133, R134, R137: ARM_A, ARM_B, JOG_A and JOG_B taken in IDLE, and ARM_A and ARM_B from the owner in ARMED, are refused
by the first check that fails, and in
STARTING, RUNNING, JOGGING, STOPPING or FAULT with BUSY, as are a JOG in ARMED and an ARM there that is not the
owner's; so are JOG_A and JOG_B in IDLE with BUDGET when the checks pass and the motor load is refused, want of room
among the reasons. The channel stays as it was.

Model's choices it rests on: log 3, 6, 7, 15. -/
def Obligations.ArmAndJogRefused : Prop :=
  ∀ (s : State) (src : Source) (ch : Byte) (c : Fin 4) (d : Direction) (i : Instr), s.takesMotion src ch c →
    ((d = .a ∧ (i = .armA src ch ∨ i = .jogA src ch)) ∨ (d = .b ∧ (i = .armB src ch ∨ i = .jogB src ch))) →
    let refused := fun (cause : Cause) (value : Nat) => exec i s = .next (s.current.noting cause c.val value).noticeTry
    ((s.chan c).state ≠ .idle → (s.chan c).state ≠ .armed → refused .busy (originValue src.origin)) ∧
    ((s.chan c).state = .armed → (i = .jogA src ch ∨ i = .jogB src ch ∨ (s.chan c).owner ≠ some src.origin) →
      refused .busy (originValue src.origin)) ∧
    ((s.chan c).state = .idle ∨ ((s.chan c).state = .armed ∧ (i = .armA src ch ∨ i = .armB src ch) ∧
        (s.chan c).owner = some src.origin) →
      (s.ds.loopOpen = true → refused .estopOpen (originValue src.origin)) ∧
      (s.ds.loopOpen = false → ∀ x : Fin 4, x ≠ c → s.ds.excludes c x = true → (s.chan x).state.active = true →
        (∀ y : Fin 4, y < x → y ≠ c → s.ds.excludes c y = true → (s.chan y).state.active = false) →
        refused .excluded x.val) ∧
      (s.ds.loopOpen = false → (∀ x : Fin 4, x ≠ c → s.ds.excludes c x = true → (s.chan x).state.active = false) →
        (s.ds.trip[c.val] = true → refused .trip (originValue src.origin)) ∧
        (s.ds.trip[c.val] = false → ∀ k, firstFalse s ((s.chan c).list d) = some k → refused .interlock k.val) ∧
        (s.ds.trip[c.val] = false → firstFalse s ((s.chan c).list d) = none → (i = .jogA src ch ∨ i = .jogB src ch) →
          s.motorRefused c (s.chan c).cfg.motorLoad → refused .budget (s.chan c).cfg.motorLoad.val)))

/-- R100, R131, R135, R140: RUN_CONTINUE from the owner in ARMED, its conditions true. The motor load fitting, it is
INRUSH at I, its timer waiting for the START, or, with an inrush time of 0, ON at F, and joins the Admission List; the
channel is STARTING in phase QUEUED with its gap timer running; and the START of its direction waits in the slot, or, on a
free line, is SENT. When it does not fit and the shed walk makes the room, the loads taken, any number, are shed and wait for
the channel, whose phase is SHEDDING with no START written. The segment being FAULTED and the slot empty, the START is
refused and the channel goes to FAULT with cause SEGMENT, its motor load released.

R137: JOG_A and JOG_B from IDLE, all checks passing: the same in mode JOG, for the verb's direction and origin, with no
gap timer.

Model's choices it rests on: log 2, 3, 6, 7, 12, 13, 15, 17. -/
def Obligations.MotionStarts : Prop :=
  (∀ (s : State) (src : Source) (ch : Byte) (c : Fin 4), s.takesMotion src ch c →
    (s.chan c).state = .armed → (s.chan c).owner = some src.origin →
    (∀ k ∈ (s.chan c).list (s.chan c).direction, condTrue s k = true) →
    let n := (s.chan c).cfg.motorLoad
    let asks := (s.lbu.loads[n.val]).cfg.asksFor
    let started := fun (u : State) (p : Phase) => u.modChan c fun x =>
      { x with state := .starting, mode := .run, phase := p
               timers := { x.timers with arm := none, gap := some (s.now + x.cfg.timings.runGap) } }
    let w := s.roomFor n asks (some c)
    s.motorReady c n →
    (s.lbu.fits n asks = true → s.slotOpen c → exec (.runContinue src ch) s =
      .next (State.current ((started (s.motorAdmitted n) .queued).startWritten c))) ∧
    (s.lbu.fits n asks = true → (s.chan c).command = none → s.zp.segment = .faulted →
      let u := (started (s.motorAdmitted n) .queued).faulting c .segment
      u.shedFree → exec (.runContinue src ch) s = .next (u.ends (released := true) (noticed := true))) ∧
    (s.lbu.fits n asks = false → s.lbu.walkable (s.lbu.loads[n.val]).cfg.priority.val → w.lbu.fits n asks = true →
      exec (.runContinue src ch) s =
        .next ((started (w.motorAdmitted n) .shedding).ends (due := true) (noticed := true)))) ∧
  (∀ (s : State) (src : Source) (ch : Byte) (c : Fin 4) (d : Direction), s.takesMotion src ch c →
    (s.chan c).state = .idle → s.ds.loopOpen = false →
    (∀ x : Fin 4, x ≠ c → s.ds.excludes c x = true → (s.chan x).state.active = false) →
    s.ds.trip[c.val] = false → (∀ k ∈ (s.chan c).list d, condTrue s k = true) →
    let n := (s.chan c).cfg.motorLoad
    let asks := (s.lbu.loads[n.val]).cfg.asksFor
    let started := fun (u : State) (p : Phase) => u.modChan c fun x =>
      { x with state := .starting, mode := .jog, phase := p, direction := d, owner := some src.origin
               stopCause := .none }
    let jog : Instr := match d with
      | .a => .jogA src ch
      | .b => .jogB src ch
    let w := s.roomFor n asks (some c)
    s.motorReady c n →
    (s.lbu.fits n asks = true → s.slotOpen c → exec jog s =
      .next (State.current ((started (s.motorAdmitted n) .queued).startWritten c))) ∧
    (s.lbu.fits n asks = true → (s.chan c).command = none → s.zp.segment = .faulted →
      let u := (started (s.motorAdmitted n) .queued).faulting c .segment
      u.shedFree → exec jog s = .next (u.ends (released := true) (noticed := true))) ∧
    (s.lbu.fits n asks = false → s.lbu.walkable (s.lbu.loads[n.val]).cfg.priority.val → w.lbu.fits n asks = true →
      exec jog s = .next ((started (w.motorAdmitted n) .shedding).ends (due := true) (noticed := true))))

/-- R98, R100, R135, R136: RUN_CONTINUE in the other cases. The owner renews the gap in STARTING mode RUN and in
RUNNING; a false condition or a refused motor load, want of room among the reasons, sends an ARMED channel to IDLE with
its notice and sheds nothing; another origin is refused with NOT_OWNER; and in IDLE, a jog, STOPPING and FAULT it is
discarded.

Model's choices it rests on: log 2, 3, 6, 7, 15. -/
def Obligations.RunContinues : Prop :=
  ∀ (s : State) (src : Source) (ch : Byte) (c : Fin 4), s.takesMotion src ch c →
    let x := s.chan c
    let run : Instr := .runContinue src ch
    (x.owner = some src.origin → ((x.state = .starting ∧ x.mode = .run) ∨ x.state = .running) →
      exec run s = .next (s.current.modChan c fun x =>
        { x with timers := { x.timers with gap := some (s.now + x.cfg.timings.runGap) } })) ∧
    (x.owner = some src.origin → x.state = .armed → ∀ k, firstFalse s (x.list x.direction) = some k →
      exec run s = .next ((s.current.atIdle c).noting .interlock c.val k.val).noticeTry) ∧
    (x.owner = some src.origin → x.state = .armed → firstFalse s (x.list x.direction) = none →
      s.motorRefused c x.cfg.motorLoad →
      exec run s = .next ((s.current.atIdle c).noting .budget c.val x.cfg.motorLoad.val).noticeTry) ∧
    (x.owner ≠ some src.origin → (x.state = .armed ∨ (x.state = .starting ∧ x.mode = .run) ∨ x.state = .running) →
      exec run s = .next (s.current.noting .notOwner c.val (originValue src.origin)).noticeTry) ∧
    (x.state = .idle ∨ (x.state = .starting ∧ x.mode = .jog) ∨ x.state = .jogging ∨ x.state = .stopping ∨
        x.state = .fault →
      exec run s = .next s.current)

/-- R135, R138: RUN_FINISH and CANCEL from the owner, and STOP from any listed console, take an ARMED channel to
IDLE; in IDLE, STOPPING and FAULT they are discarded.

R139: MOTION_CLEAR. In FAULT with the loop closed, the trips released and the segment NORMAL the channel is IDLE;
with one of them present it stays in FAULT with notice STILL_PRESENT; in any other state it is discarded.

Model's choices it rests on: log 3, 6, 7. -/
def Obligations.VerbsAtRest : Prop :=
  (∀ (s : State) (src : Source) (ch : Byte) (c : Fin 4) (i : Instr), s.takesMotion src ch c →
    i ∈ [Instr.runFinish src ch, .stop src ch, .cancel src ch] →
    ((s.chan c).state = .armed → (i = .stop src ch ∨ (s.chan c).owner = some src.origin) →
      exec i s = .next (s.current.atIdle c)) ∧
    ((s.chan c).state = .armed → i ≠ .stop src ch → (s.chan c).owner ≠ some src.origin →
      exec i s = .next (s.current.noting .notOwner c.val (originValue src.origin)).noticeTry) ∧
    ((s.chan c).state = .idle ∨ (s.chan c).state = .stopping ∨ (s.chan c).state = .fault →
      exec i s = .next s.current)) ∧
  (∀ (s : State) (src : Source) (ch : Byte) (c : Fin 4), s.takesMotion src ch c →
    let clear := s.ds.loopOpen = false ∧ s.ds.trip[c.val] = false ∧
      s.lbu.trip[((s.lbu.loads[(s.chan c).cfg.motorLoad.val]).cfg.branch).val] = false ∧ s.zp.segment = .normal
    ((s.chan c).state = .fault → clear → exec (.motionClear src ch) s = .next (s.current.atIdle c)) ∧
    ((s.chan c).state = .fault → ¬ clear → exec (.motionClear src ch) s =
      .next (s.current.noting .stillPresent c.val (originValue src.origin)).noticeTry) ∧
    ((s.chan c).state ≠ .fault → exec (.motionClear src ch) s = .next s.current))

/-- R127, R128, R136, R138, R145, R146: what ends a motion under way, in RUNNING, in JOGGING or in STARTING phase SENT, by
the stop sequence, each with its cause: RUN_FINISH from the owner of a run, STOP, CANCEL from the owner, AT_LIMIT, STALLED,
and the gap, travel and jog timers.

R84, R127: a stop request in STARTING phase SHEDDING or QUEUED withdraws the start, by the same verbs and the gap timer: a
START leaves the slot and the queue, the motor load is released, and the channel is IDLE with the cause recorded; a release
event.

R136, R138: RUN_FINISH and CANCEL from another origin are refused with NOT_OWNER, and RUN_FINISH is discarded in a jog.

Model's choices it rests on: log 2, 3, 6, 12, 17. -/
def Obligations.StopSequences : Prop :=
  (∀ (s : State) (c : Fin 4), s.slotOpen c →
    let x := s.chan c
    let sent := x.state = .starting ∧ x.phase = .sent
    (∀ src ch, s.takesMotion src ch c → (x.state = .running ∨ (sent ∧ x.mode = .run)) → x.owner = some src.origin →
      exec (.runFinish src ch) s = .next (s.current.stoppedBy c .finish)) ∧
    (∀ src ch, s.takesMotion src ch c → (x.state = .running ∨ x.state = .jogging ∨ sent) →
      exec (.stop src ch) s = .next (s.current.stoppedBy c .stop) ∧
      (x.owner = some src.origin → exec (.cancel src ch) s = .next (s.current.stoppedBy c .stop))) ∧
    (∀ src, s.takesIndication src c → (x.state = .running ∨ x.state = .jogging ∨ (sent ∧ x.enable = true)) →
      exec (.atLimit src) s = .next (s.current.stoppedBy c .limit) ∧
      exec (.stalled src) s = .next (s.current.stoppedBy c .stall)) ∧
    (∀ d, x.timers.gap = some d → (x.state = .running ∨ x.state = .jogging ∨ sent) →
      exec (.gapTimerExpiry c) s = .next (State.stoppedBy { s.current with now := max s.now d } c .gap)) ∧
    (∀ d, x.timers.travel = some d → x.state = .running →
      exec (.travelTimerExpiry c) s = .next (State.stoppedBy { s.current with now := max s.now d } c .travelLimit)) ∧
    (∀ d, x.timers.jog = some d → x.state = .jogging →
      exec (.jogTimerExpiry c) s = .next (State.stoppedBy { s.current with now := max s.now d } c .jogEnd))) ∧
  (∀ (s : State) (c : Fin 4), (s.chan c).state = .starting → (s.chan c).phase ≠ .sent →
    (∀ src ch, s.takesMotion src ch c →
      ((s.withdrawn c .stop).shedFree →
        exec (.stop src ch) s = .next ((s.withdrawn c .stop).ends (released := true)) ∧
        ((s.chan c).owner = some src.origin →
          exec (.cancel src ch) s = .next ((s.withdrawn c .stop).ends (released := true)))) ∧
      ((s.withdrawn c .finish).shedFree → (s.chan c).mode = .run → (s.chan c).owner = some src.origin →
        exec (.runFinish src ch) s = .next ((s.withdrawn c .finish).ends (released := true)))) ∧
    (∀ d, (s.chan c).timers.gap = some d →
      let u := State.withdrawn { s with now := max s.now d } c .gap
      u.shedFree → exec (.gapTimerExpiry c) s = .next (u.ends (released := true)))) ∧
  (∀ (s : State) (src : Source) (ch : Byte) (c : Fin 4), s.takesMotion src ch c →
    let x := s.chan c
    let foreign := x.owner ≠ some src.origin
    (foreign → (x.state = .running ∨ (x.state = .starting ∧ x.mode = .run)) → exec (.runFinish src ch) s =
      .next (s.current.noting .notOwner c.val (originValue src.origin)).noticeTry) ∧
    ((x.state = .jogging ∨ (x.state = .starting ∧ x.mode = .jog)) → exec (.runFinish src ch) s = .next s.current) ∧
    (foreign → (x.state = .running ∨ x.state = .jogging ∨ x.state = .starting) → exec (.cancel src ch) s =
      .next (s.current.noting .notOwner c.val (originValue src.origin)).noticeTry))

/-- R145: MOVING. In STARTING with the enable high the motion is under way: RUNNING with the travel timer in mode RUN,
JOGGING with the jog timer in mode JOG. In any other state it is discarded.

R84, R101, R145: AT_REST. In a motion under way the enable falls, the motor load is released, and the channel is IDLE
with notice CONTROLLER_REST; in STOPPING the same without the notice, but after a stall the channel goes to FAULT with
a HALT; each a release event. Elsewhere it is discarded.

R145: STALLED in STOPPING makes the stop cause STALL; AT_LIMIT there, and both where no motion is under way, are
discarded.

Model's choices it rests on: log 2, 3, 6, 7, 12, 17. -/
def Obligations.IndicationsTaken : Prop :=
  (∀ (s : State) (src : Source) (c : Fin 4), s.takesIndication src c →
    let x := s.chan c
    let high := x.state = .starting ∧ x.phase = .sent ∧ x.enable = true
    (high → x.mode = .run → exec (.moving src) s = .next (s.current.modChan c fun x =>
      { x with state := .running, phase := .none
               timers := { x.timers with start := none
                                         travel := some (s.now + x.cfg.timings.travelLimit * 1000) } })) ∧
    (high → x.mode = .jog → exec (.moving src) s = .next (s.current.modChan c fun x =>
      { x with state := .jogging, phase := .none
               timers := { x.timers with start := none, jog := some (s.now + x.cfg.timings.jogTime) } })) ∧
    (¬ high → exec (.moving src) s = .next s.current)) ∧
  (∀ (s : State) (src : Source) (c : Fin 4), s.takesIndication src c →
    let x := s.chan c
    let moving := x.state = .running ∨ x.state = .jogging ∨ (x.state = .starting ∧ x.phase = .sent ∧ x.enable = true)
    let rest := (s.motorOff c).atIdle c
    (moving → rest.shedFree → exec (.atRest src) s =
      .next ((rest.noting .controllerRest c.val 0).ends (released := true) (noticed := true))) ∧
    (x.state = .stopping → x.stopCause ≠ .stall → rest.shedFree →
      exec (.atRest src) s = .next (rest.ends (released := true))) ∧
    (x.state = .stopping → x.stopCause = .stall → s.faultOpen c .stall → (s.faulting c .stall).shedFree →
      exec (.atRest src) s = .next ((s.faulting c .stall).ends (released := true) (noticed := true))) ∧
    (¬ moving → x.state ≠ .stopping → exec (.atRest src) s = .next s.current) ∧
    (x.state = .stopping →
      exec (.stalled src) s = .next (s.current.modChan c fun x => { x with stopCause := .stall }) ∧
      exec (.atLimit src) s = .next s.current) ∧
    (¬ moving → x.state ≠ .stopping →
      exec (.stalled src) s = .next s.current ∧ exec (.atLimit src) s = .next s.current))

/-- R129, R145: FAULTED from any state but OFF and FAULT: FAULT with cause CONTROLLER_FAULT, the
enable low, a HALT in the slot, the record and the notice of the state it came from; in OFF and FAULT it is discarded.

R129, R146: START_TIMER_EXPIRY in STARTING and STOP_TIMER_EXPIRY in STOPPING take the channel to FAULT
with causes NO_START and NO_STOP, a HALT in the slot where the START is SENT.

R84, R129, R131: the release of the motor load of a channel in STARTING, RUNNING, JOGGING or STOPPING makes the entry to
FAULT a release event.

R134, R146: ARM_TIMER_EXPIRY in ARMED takes the channel to IDLE with notice ARM_EXPIRED.

Model's choices it rests on: log 2, 3, 6, 7, 12, 13, 17. -/
def Obligations.ChannelFaults : Prop :=
  (∀ (s : State) (src : Source) (c : Fin 4), s.takesIndication src c →
    ((s.chan c).state ≠ .off → (s.chan c).state ≠ .fault →
      let u := s.faulting c .controllerFault
      s.faultOpen c .controllerFault → (s.drives c = true → u.shedFree) →
      exec (.faulted src) s = .next (u.ends (released := s.drives c) (noticed := true))) ∧
    ((s.chan c).state = .off ∨ (s.chan c).state = .fault → exec (.faulted src) s = .next s.current)) ∧
  (∀ (s : State) (c : Fin 4) (d : Nat),
    let at_ : State := { s with now := max s.now d }
    ((s.chan c).timers.start = some d → (s.chan c).state = .starting → s.faultOpen c .noStart →
      let u := at_.faulting c .noStart
      u.shedFree → exec (.startTimerExpiry c) s = .next (u.ends (released := true) (noticed := true))) ∧
    ((s.chan c).timers.stop = some d → (s.chan c).state = .stopping → s.faultOpen c .noStop →
      let u := at_.faulting c .noStop
      u.shedFree → exec (.stopTimerExpiry c) s = .next (u.ends (released := true) (noticed := true)))) ∧
  (∀ (s : State) (c : Fin 4) (d : Nat), (s.chan c).timers.arm = some d → (s.chan c).state = .armed →
    exec (.armTimerExpiry c) s =
      .next ((State.atIdle { s.current with now := max s.now d } c).noting .armExpired c.val 0).noticeTry)

/-- R129, R147: ESTOP_LOOP_OPEN. Every active channel, in ascending number, goes to FAULT with cause ESTOP, its enable
output low, a HALT in its slot if its motion is under way, and its motor load, if it holds it, released, a release event;
every other channel keeps its state.

R147: ESTOP_LOOP_CLOSE and DRIVE_TRIP_RELEASED change the level of their input and no channel.

R84, R129, R147: DRIVE_TRIP_ASSERTED. A channel in any state but OFF and FAULT goes to FAULT with cause TRIP in the same
way; one in OFF or FAULT is left as it is.

Model's choices it rests on: log 6, 7, 12, 13, 17, 23. -/
def Obligations.LinesFault : Prop :=
  (∀ s : State, s.ds.loopOpen = false →
    let on := fun c : Fin 4 => (s.chan c).state.active
    let u := State.faultingAll { s with ds := { s.ds with loopOpen := true } } on .estop
    let released := decide (∃ c : Fin 4, s.drives c = true)
    ((∀ c : Fin 4, on c = true → s.faultOpen c .estop) → (released = true → u.shedFree) →
      exec .estopLoopOpen s =
        .next (u.ends (released := released) (noticed := decide (∃ c : Fin 4, on c = true)))) ∧
    ∃ t, exec .estopLoopOpen s = .next t ∧ t.ds.loopOpen = true ∧ t.ds.trip = s.ds.trip ∧
      ∀ c : Fin 4, ((s.chan c).state.active = false → (t.chan c).state = (s.chan c).state) ∧
        ((s.chan c).state.active = true → (t.chan c).state = .fault ∧ (t.chan c).enable = false ∧
          (t.chan c).faultCause = .estop ∧ (t.chan c).faultState = (s.chan c).state ∧ (t.chan c).owner = none ∧
          (t.chan c).phase = .none ∧ (t.chan c).timers = .stopped)) ∧
  (∀ (s : State) (c : Fin 4),
    exec .estopLoopClose s = .next { s with ds := { s.ds with loopOpen := false } } ∧
    exec (.driveTripReleased c) s = .next { s with ds := { s.ds with trip := upd s.ds.trip c fun _ => false } }) ∧
  (∀ (s : State) (c : Fin 4), s.ds.trip[c.val] = false →
    let u : State := { s with ds := { s.ds with trip := upd s.ds.trip c fun _ => true } }
    let v := u.faulting c .trip
    ((s.chan c).state = .off ∨ (s.chan c).state = .fault → exec (.driveTripAsserted c) s = .next u.current) ∧
    ((s.chan c).state ≠ .off → (s.chan c).state ≠ .fault → s.faultOpen c .trip → (s.drives c = true → v.shedFree) →
      exec (.driveTripAsserted c) s = .next (v.ends (released := s.drives c) (noticed := true))))

/-- R127, R155, R156: FRESHNESS_EXPIRY of a condition in use. Every channel that uses it, any number, in ascending number, is
told: notice INTERLOCK of the first condition of its direction's list that is not true; in ARMED it is IDLE, in RUNNING,
JOGGING and STARTING phase SENT it takes the stop sequence with cause INTERLOCK, and in STARTING before that the start is
withdrawn, a release event.

Model's choices it rests on: log 2, 6, 7, 12, 15, 17. -/
def Obligations.StaleConditionStops : Prop :=
  ∀ (s : State) (k : Fin 48) (v : Half) (updated : Nat),
    (s.pm.points[((s.ie.conditions[k.val]).point).val]).state = .valid v updated →
    (s.ie.conditions[k.val]).limit ≠ 0 → (∃ c : Fin 4, s.watches [k] c = true) → s.stopsOpen [k] = true →
    let u := State.interlockedAll { s with now := max s.now (updated + (s.ie.conditions[k.val]).limit + 1) } [k]
    let released := (List.finRange 4).any (s.withdraws [k])
    (released = true → u.shedFree) →
    exec (.freshnessExpiry k) s = .next (u.ends (released := released) (noticed := true))

/-! ### The Management Responder -/

/-- R52, R159, R160: a request from an origin that no valid manager entry holds, one that finds no free buffer, and one with
N below 2 have no effect and no reply; which frame each request command stands for, and when MR accepts an origin.

R13: one that fails a later test is answered with the status of the first that it fails and has no other effect: the
request code, the table code, N, the index or number, the coded fields. One that fails none is decoded. The codes of the
statuses. A WRITE or READ with N = 2 and a WRITE of CHANNEL with N = 3 fail the test of N by the model's choice (log 14).

R161: a reply whose place is refused, at any port, is lost with its buffer returned.

Model's choices it rests on: log 3, 6, 8, 14. -/
def Obligations.RequestsNotCarriedOut : Prop :=
  (∀ (s : State) (src : Source) (p : List Byte), discarded s src = false →
    (s.mr.accepts src.origin = false → s.handOff 7 src p = s.current) ∧
    (s.mr.accepts src.origin = true → s.pool.freeCount = 0 → s.handOff 7 src p = s.current) ∧
    (s.takesRequest src → p.length < 2 → ∃ b, (s.buf b).free = true ∧
      s.handOff 7 src p = s.current.modBuf b fun x => { x with free := true, refs := 0 }) ∧
    (s.canAnswer src → 2 ≤ p.length →
      let refused := fun st : Status => ∃ b, (s.buf b).free = true ∧
        s.handOff 7 src p =
          (s.current.repliedAt src.port b src.origin (byteAt p 0) (byteAt p 1) st []).noticeTry
      (wrongCode p → refused .badRequest) ∧
      (¬ wrongCode p → wrongTable p → refused .badTable) ∧
      (¬ wrongCode p → ¬ wrongTable p → wrongLength p → refused .badRequest) ∧
      (¬ wrongCode p → ¬ wrongTable p → ¬ wrongLength p → wrongIndex p → refused .badIndex) ∧
      (¬ wrongCode p → ¬ wrongTable p → ¬ wrongLength p → ¬ wrongIndex p → wrongValue p → refused .badValue))) ∧
  (∀ p : List Byte, 2 ≤ p.length → ¬ wrongCode p → ¬ wrongTable p → ¬ wrongLength p → ¬ wrongIndex p →
    ¬ wrongValue p → ∃ r, decodeRequest p = .good r) ∧
  (∀ (s : State) (src : Source) (tag : Byte), s.takesRequest src → s.takesReply src.port = false →
    ∃ b, (s.buf b).free = true ∧
      exec (.identify src tag) s = .next (s.current.modBuf b fun x => { x with free := true, refs := 0 }).noticeTry) ∧
  (∀ (m : Management) (o : Origin), m.accepts o = true ↔
    ((∀ i : Fin 2, (m.managers[i.val]).valid = false) ∨
      ∃ i : Fin 2, (m.managers[i.val]).valid = true ∧ (m.managers[i.val]).origin = o)) ∧
  ([Status.ok, .okClamped, .badRequest, .badTable, .badIndex, .badValue, .inUse, .alreadySet, .notState,
      .stillPresent].map Status.code = [0, 1, 2, 3, 4, 5, 6, 7, 8, 9]) ∧
  (∀ (s : State) (src : Source) (tag x y z : Byte) (index : Half) (r : List Byte),
    let sends := fun (i : Instr) (p : List Byte) => exec i s = .next (s.handOff 7 src p)
    let at_ := [index.extractLsb' 8 8, index.extractLsb' 0 8]
    (sends (.identify src tag) [1, tag] ∧ sends (.assignZone src tag x) [2, tag, x]) ∧
    (sends (.writeRoute src tag index r) ([3, tag, 0] ++ at_ ++ r) ∧
      sends (.writeLoad src tag index r) ([3, tag, 1] ++ at_ ++ r) ∧
      sends (.writeLimit src tag index r) ([3, tag, 2] ++ at_ ++ r) ∧
      sends (.writePoint src tag index r) ([3, tag, 3] ++ at_ ++ r) ∧
      sends (.writeCondition src tag index r) ([3, tag, 4] ++ at_ ++ r) ∧
      sends (.writeChannelPart0 src tag x r) ([3, tag, 5, 0, x] ++ r) ∧
      sends (.writeChannelPart1 src tag x r) ([3, tag, 5, 1, x] ++ r) ∧
      sends (.writeChannelPart2 src tag x r) ([3, tag, 5, 2, x] ++ r) ∧
      sends (.writeChannelPart3 src tag x r) ([3, tag, 5, 3, x] ++ r) ∧
      sends (.writeScene src tag index r) ([3, tag, 6] ++ at_ ++ r) ∧
      sends (.writeAction src tag index r) ([3, tag, 7] ++ at_ ++ r) ∧
      sends (.writeManagers src tag index r) ([3, tag, 8] ++ at_ ++ r) ∧
      sends (.writeParam src tag index r) ([3, tag, 9] ++ at_ ++ r)) ∧
    (sends (.read src tag x index r) ([4, tag, x] ++ at_ ++ r) ∧
      sends (.readStatusChannel src tag x y) [5, tag, 0, x, y] ∧ sends (.readStatusBranch src tag x y) [5, tag, 1, x, y] ∧
      sends (.readStatusLoad src tag x y) [5, tag, 2, x, y] ∧ sends (.readStatusPool src tag x y) [5, tag, 3, x, y] ∧
      sends (.readStatusPort src tag x y) [5, tag, 4, x, y]) ∧
    (sends (.setModeManual src tag x z) [6, tag, x, z] ∧ sends (.setModeFromPoint src tag z) [6, tag, 4, z] ∧
      sends (.recallScene src tag x) [7, tag, x] ∧ sends (.clear src tag x) [8, tag, x] ∧
      sends (.resetSegment src tag) [9, tag] ∧ sends (.restart src tag) [10, tag]))

/-- R14, R55: the record bytes of every table. What a READ places of an entry (the statement on reads) is, field by field
and byte by byte, the record of R14, of the table's length; a WRITE of such a record takes (the statements on writes) the
entry that it is the record of, with the unused bits of a flag byte, a field of ROUTE that is ANY, an absent rewrite, and
the places of a list beyond its count read back as 0. -/
def Obligations.RecordsReadBack : Prop :=
  (∀ c : Route, encodeRoute c = routeRecord c ∧ (routeRecord c).length = 8 ∧
    ((∀ z d, c.value = some (z, d) → z ≤ 63) → (∀ z, c.originZone = some z → z ≤ 60) →
      (∀ g, c.rewrite = some g → g ≠ 0) → decodeRoute (routeRecord c) = some c) ∧
    ∀ r : List Byte, r.length = 8 → decodeRoute r = some c →
      routeRecord c =
        [ byteAt r 0, if (byteAt r 0).getLsbD 4 then 0 else byteAt r 1, if (byteAt r 0).getLsbD 5 then 0 else byteAt r 2,
          if (byteAt r 0).getLsbD 6 then 0 else byteAt r 3, if (byteAt r 0).getLsbD 6 then 0 else byteAt r 4,
          if (byteAt r 0).getLsbD 7 then 0 else byteAt r 5, byteAt r 6,
          if (byteAt r 0).getLsbD 3 then byteAt r 7 else 0 ]) ∧
  (∀ c : LoadCfg, encodeLoad c = loadRecord c ∧ (loadRecord c).length = 10 ∧
    (c.full < 65536 → c.inrush < 65536 → c.inrushTime < 256 → c.minLevel < 65536 →
      decodeLoad (loadRecord c) = some c) ∧
    ∀ r : List Byte, r.length = 10 → decodeLoad r = some c → loadRecord c = r) ∧
  (∀ l : Limits, encodeLimits l = limitRecord l ∧ (limitRecord l).length = 10 ∧
    ((∀ b : Fin 4, l.branch[b.val] < 65536) → l.total < 65536 → decodeLimits (limitRecord l) = l) ∧
    ∀ r : List Byte, r.length = 10 → limitRecord (decodeLimits r) = r) ∧
  (∀ p : PointCfg, encodePoint p = pointRecord p ∧ (pointRecord p).length = 4 ∧
    decodePoint (pointRecord p) = some p ∧
    ∀ r : List Byte, r.length = 4 → decodePoint r = some p → pointRecord p = (byteAt r 0 &&& 0x01) :: r.drop 1) ∧
  (∀ c : Condition, encodeCondition c = conditionRecord c ∧ (conditionRecord c).length = 6 ∧
    (c.limit < 65536 → decodeCondition (conditionRecord c) = some c) ∧
    ∀ r : List Byte, r.length = 6 → decodeCondition r = some c →
      conditionRecord c = (byteAt r 0 &&& 0x0F) :: r.drop 1) ∧
  (∀ c : ChanCfg,
    (encodePart0 c = channelRecord 0 c ∧ (channelRecord 0 c).length = 3 ∧
      decodePart0 (channelRecord 0 c) = some ⟨c.valid, c.exclusion, c.controller, c.motorLoad⟩ ∧
      ∀ r : List Byte, r.length = 3 → decodePart0 r = some ⟨c.valid, c.exclusion, c.controller, c.motorLoad⟩ →
        channelRecord 0 c = (byteAt r 0 &&& 0x1F) :: r.drop 1) ∧
    (encodePart1 c = channelRecord 1 c ∧ (channelRecord 1 c).length = 9 ∧
      (c.consoles.length ≤ 4 → decodePart1 (channelRecord 1 c) = some c.consoles) ∧
      ∀ r : List Byte, r.length = 9 → decodePart1 r = some c.consoles →
        channelRecord 1 c = (List.range 9).map fun i => if i ≤ 2 * (byteAt r 0).toNat then byteAt r i else 0) ∧
    (encodePart2 c = channelRecord 2 c ∧ (channelRecord 2 c).length = 12 ∧
      (c.timings.armWindow < 65536 → c.timings.runGap < 65536 → c.timings.startTimeout < 65536 →
        c.timings.stopTimeout < 65536 → c.timings.travelLimit < 65536 → c.timings.jogTime < 65536 →
        decodePart2 (channelRecord 2 c) = c.timings) ∧
      ∀ r : List Byte, r.length = 12 → decodePart2 r = c.timings → channelRecord 2 c = r) ∧
    (encodePart3 c = channelRecord 3 c ∧ (channelRecord 3 c).length = 14 ∧
      (c.listA.length ≤ 6 → c.listB.length ≤ 6 → decodePart3 (channelRecord 3 c) = some (c.listA, c.listB)) ∧
      ∀ r : List Byte, r.length = 14 → decodePart3 r = some (c.listA, c.listB) →
        channelRecord 3 c = (List.range 14).map fun i =>
          if i ≤ (byteAt r 0).toNat ∨ (7 ≤ i ∧ i ≤ 7 + (byteAt r 7).toNat) then byteAt r i else 0)) ∧
  (∀ c : SceneRec, encodeScene c = sceneRecord c ∧ (sceneRecord c).length = 4 ∧
    (c.first < 65536 → c.count < 256 → decodeScene (sceneRecord c) = c) ∧
    ∀ r : List Byte, r.length = 4 → sceneRecord (decodeScene r) = (byteAt r 0 &&& 0x01) :: r.drop 1) ∧
  (∀ run : List ActionRec,
    actionRecord run = byteOf run.length :: run.flatMap encodeAction ∧ (actionRecord run).length = 1 + 5 * run.length ∧
    ((∀ a ∈ run, a.load < 256 ∧ a.level < 65536 ∧ a.fade < 256 ∧ a.delay < 256) →
      (List.range run.length).map (decodeAction (actionRecord run)) = run)) ∧
  (∀ (r : List Byte) (k : Nat), decodeAction r k =
    ⟨(byteAt r (1 + 5 * k)).toNat, 256 * (byteAt r (2 + 5 * k)).toNat + (byteAt r (3 + 5 * k)).toNat,
      (byteAt r (4 + 5 * k)).toNat, (byteAt r (5 + 5 * k)).toNat⟩) ∧
  (∀ m : Manager, encodeManager m = managerRecord m ∧ (managerRecord m).length = 3 ∧
    decodeManager (managerRecord m) = m ∧
    ∀ r : List Byte, r.length = 3 → decodeManager r = m → managerRecord m = (byteAt r 0 &&& 0x01) :: r.drop 1) ∧
  ∀ h : BitVec 4, (h ≠ 0 → decodeParam [h.zeroExtend 8] = some h) ∧
    ∀ r : List Byte, r.length = 1 → decodeParam r = some h → r = [h.zeroExtend 8] ∧ h ≠ 0

/-- R16: IDENTIFY answers its 15 bytes and changes nothing but the reply.

R14, R164: READ answers, for each table, the record of R14 of the entry held, byte by byte (the records of Safety.lean), and
changes nothing but the reply.

R15, R49, R105, R149, R165: READ_STATUS of every item, with a clear flag of 0 or 1, and the codes of the states and causes it
answers. The free count is one less than before the request; the flag clears the counters of the named port after they are
placed in the reply, and does nothing for the other items.

Model's choices it rests on: log 3, 6, 8. -/
def Obligations.ReadsAnswered : Prop :=
  (∀ (s : State) (src : Source) (tag : Byte), s.canAnswer src →
    Answers s (.identify src tag) src 1 tag .ok
      [0x00, 0xED, 0x00, 0x24, 0x01, s.mr.ownZone, 64, 96, 64, 48, 4, 128, 0x04, 0x00, 48] s ∧
    let reads := fun (table index : Nat) (more record : List Byte) =>
      Answers s (.read src tag (byteOf table) (BitVec.ofNat 16 index) more) src 4 tag .ok record s
    (∀ i : Fin 64, reads 0 i.val [] (routeRecord s.fe.routes[i.val])) ∧
    (∀ n : Fin 96, reads 1 n.val [] (loadRecord (s.lbu.loads[n.val]).cfg)) ∧
    (∀ m : Fin 4, reads 2 m.val [] (limitRecord s.lbu.limits[m.val])) ∧
    (∀ k : Fin 64, reads 3 k.val [] (pointRecord (s.pm.points[k.val]).cfg)) ∧
    (∀ k : Fin 48, reads 4 k.val [] (conditionRecord s.ie.conditions[k.val])) ∧
    (∀ part c : Fin 4, reads 5 (256 * part.val + c.val) [] (channelRecord part (s.chan c).cfg)) ∧
    (∀ n : Fin 128, reads 6 n.val [] (sceneRecord s.sx.scenes[n.val])) ∧
    (∀ first count : Nat, 1 ≤ count → count ≤ 3 → first + count ≤ 1024 →
      reads 7 first [byteOf count] (actionRecord ((s.sx.actions.toList.drop first).take count))) ∧
    (∀ i : Fin 2, reads 8 i.val [] (managerRecord s.mr.managers[i.val])) ∧
    reads 9 0 [] [s.fe.hopBudget.zeroExtend 8]) ∧
  (∀ (s : State) (src : Source) (tag number flag : Byte), s.canAnswer src → (flag = 0 ∨ flag = 1) →
    (∀ c : Fin 4, number.toNat = c.val →
      let x := s.chan c
      Answers s (.readStatusChannel src tag number flag) src 5 tag .ok
        [ byteOf x.state.code, byteOf (if x.state = .starting then x.phase.code else 0), byteOf x.mode.code,
          byteOf x.direction.code, (x.owner.map Origin.zone).getD 0, (x.owner.map Origin.device).getD 0,
          (x.command.map fun k => byteOf k.code.code).getD 0, byteOf x.stopCause.code, byteOf x.faultCause.code,
          byteOf x.faultState.code, if x.enable then 1 else 0 ] s) ∧
    (∀ b : Fin 4, number.toNat = b.val →
      let mode : Byte := match s.lbu.mode with
        | .shore => 0
        | .genOne => 1
        | .genTwo => 2
        | .inverter => 3
      let selector : List Byte := match s.lbu.selector with
        | .manual => [0, 0]
        | .fromPoint k => [1, byteOf k.val]
      Answers s (.readStatusBranch src tag number flag) src 5 tag .ok
        (bytes3 (s.lbu.commit b) ++ bytes2 (s.lbu.effBranch b) ++ bytes3 s.lbu.total ++ bytes2 s.lbu.effTotal ++
          [ byteOf ((s.lbu.overBranch[b.val]).toNat + 2 * s.lbu.overTotal.toNat + 4 * (s.lbu.trip[b.val]).toNat),
            mode ] ++ selector) s) ∧
    (∀ n : Fin 96, number.toNat = n.val →
      let l := s.lbu.loads[n.val]
      let state : Byte := match l.state with
        | .off => 0
        | .inrush => 1
        | .on => 2
        | .shed => 3
      let fading := match l.fade with
        | .stopped => 0
        | .rising _ => 2
        | .falling _ => 6
      Answers s (.readStatusLoad src tag number flag) src 5 tag .ok
        ([state] ++ bytes2 l.granted ++ bytes2 l.committed ++ bytes2 l.requested ++ bytes2 l.demand ++
          [ byteOf (l.due.toNat + fading), (l.bound.map fun c => byteOf c.val).getD 255, byteOf l.lastFade ]) s) ∧
    (number = 0 → Answers s (.readStatusPool src tag number flag) src 5 tag .ok
      [ byteOf (s.pool.freeCount - 1), byteOf s.tpa.queue.places.length, byteOf s.tpb.queue.places.length,
        byteOf s.zp.queue.places.length ] s) ∧
    (∀ p : Port, number.toNat = (match p with
        | .a => 0
        | .b => 1
        | .zone => 2) →
      let k := match p with
        | .a => s.tpa.counters
        | .b => s.tpb.counters
        | .zone => s.zp.counters
      let cleared : State := match p with
        | .a => { s with tpa := { s.tpa with counters := ⟨0, 0, 0, 0, 0, 0⟩ } }
        | .b => { s with tpb := { s.tpb with counters := ⟨0, 0, 0, 0, 0, 0⟩ } }
        | .zone => { s with zp := { s.zp with counters := ⟨0, 0, 0, 0, 0, 0⟩ } }
      Answers s (.readStatusPort src tag number flag) src 5 tag .ok
        (bytes2 k.good ++ bytes2 k.badCheck ++ bytes2 k.longOrAborted ++ bytes2 k.noBuffer ++ bytes2 k.transmitted ++
          bytes2 k.txFailed)
        (if flag = 1 then cleared else s))) ∧
  ([ChanState.off, .idle, .armed, .starting, .running, .jogging, .stopping, .fault].map ChanState.code = List.range 8) ∧
  ([Phase.none, .shedding, .queued, .sent].map Phase.code = List.range 4) ∧
  ([MotionMode.run, .jog].map MotionMode.code = List.range 2) ∧ ([Direction.a, .b].map Direction.code = List.range 2) ∧
  ([DriveCode.startA, .startB, .stop, .halt].map DriveCode.code = [1, 2, 3, 4]) ∧
  ([StopCause.none, .finish, .stop, .gap, .limit, .travelLimit, .jogEnd, .interlock, .stall].map StopCause.code =
    List.range 9) ∧
  ([FaultCause.none, .estop, .trip, .branchTrip, .segment, .stall, .controllerFault, .noStart, .noStop].map
    FaultCause.code = List.range 9)

/-- R55, R63, R86, R160, R164: WRITE_ROUTE, WRITE_MANAGERS and WRITE_PARAM store their record, and WRITE_LIMIT stores
the limits of a mode; of another mode than the present one it does no more.

R83, R84, R87 to R89: WRITE_LIMIT of the present mode. The limit-decrease walk sheds its loads, any number,
and the OVERCOMMIT flags are set where a sum is still above its new limit and clear elsewhere, each that goes from clear to
set with notice OVERCOMMIT and the deficit, at most 65535; a limit that has risen makes a release event.

R68, R69, R151, R164: WRITE_POINT makes the point UNKNOWN with its new configuration, and WRITE_CONDITION stores
the condition with its limit clamped to 100 to 60000 unless it is 0; both are refused with IN_USE while the point or
condition is in use.

Model's choices it rests on: log 3, 6, 12, 17, 28. -/
def Obligations.RecordsStored : Prop :=
  (∀ (s : State) (src : Source) (tag : Byte) (index : Half) (record : List Byte), s.canAnswer src →
    (∀ (i : Fin 64) (r : Route), record.length = 8 → index.toNat = i.val → decodeRoute record = some r →
      Answers s (.writeRoute src tag index record) src 3 tag .ok []
        { s with fe := { s.fe with routes := upd s.fe.routes i fun _ => r } }) ∧
    (∀ i : Fin 2, record.length = 3 → index.toNat = i.val →
      Answers s (.writeManagers src tag index record) src 3 tag .ok []
        { s with mr := { s.mr with managers := upd s.mr.managers i fun _ => decodeManager record } }) ∧
    (∀ h : BitVec 4, record.length = 1 → index = 0 → decodeParam record = some h →
      Answers s (.writeParam src tag index record) src 3 tag .ok [] { s with fe := { s.fe with hopBudget := h } }) ∧
    (∀ m : Fin 4, record.length = 10 → index.toNat = m.val →
      let u : Budget := { s.lbu with limits := upd s.lbu.limits m fun _ => decodeLimits record }
      let v : State := { s with lbu := u }
      let i : Instr := .writeLimit src tag index record
      (m ≠ s.lbu.mode.index → Answers s i src 3 tag .ok [] v) ∧
      (m = s.lbu.mode.index →
        u.walkable 0 →
        let w := v.decreased.overcommitted
        (s.noRise u → AnswersWith s i src 3 tag .ok [] w (v.sheds w)) ∧
        (¬ s.noRise u → w.shedFree → AnswersReleased s i src 3 tag .ok [] w (v.sheds w))))) ∧
  (∀ (s : State) (src : Source) (tag : Byte) (index : Half) (record : List Byte), s.canAnswer src →
    (∀ (k : Fin 64) (r : PointCfg), record.length = 4 → index.toNat = k.val → decodePoint record = some r →
      (pointInUse s k = false → Answers s (.writePoint src tag index record) src 3 tag .ok []
        { s with pm := { points := upd s.pm.points k fun _ => ⟨r, .unknown⟩ } }) ∧
      (pointInUse s k = true → Answers s (.writePoint src tag index record) src 3 tag .inUse [] s)) ∧
    (∀ (k : Fin 48) (r : Condition), record.length = 6 → index.toNat = k.val → decodeCondition record = some r →
      let limit := if r.limit = 0 then 0 else max 100 (min 60000 r.limit)
      (inUse s k = false →
        Answers s (.writeCondition src tag index record) src 3 tag (if limit = r.limit then .ok else .okClamped) []
          { s with ie := { conditions := upd s.ie.conditions k fun _ => { r with limit := limit } } }) ∧
      (inUse s k = true → Answers s (.writeCondition src tag index record) src 3 tag .inUse [] s))) ∧
  ∀ (s : State) (p : Fin 64), pointInUse s p = true ↔
    ∃ k : Fin 48, (s.ie.conditions[k.val]).point = p ∧ inUse s k = true

/-- R107 to R109, R116, R164: WRITE_SCENE stores a record that keeps the bounds, and ends the scene's slot alone, with its
entries and notice SCENE_REPLACED, where every other ACTIVE slot has an entry; WRITE_ACTION of
one to three actions is refused with IN_USE where a valid scene's range holds an index of the run, then with BAD_VALUE where
an action names a load above 95; else it stores them from its index on, each level clamped to 1000.

Model's choices it rests on: log 3, 6. -/
def Obligations.ScenesAndActionsStored : Prop :=
  ∀ (s : State) (src : Source) (tag : Byte) (index : Half) (record : List Byte), s.canAnswer src →
    (∀ n : Fin 128, record.length = 4 → index.toNat = n.val →
      let r := decodeScene record
      let good := r.valid = true → 1 ≤ r.count ∧ r.count ≤ 32 ∧ r.first + r.count ≤ 1024
      let u : SceneExpander := { s.sx with scenes := upd s.sx.scenes n fun _ => r }
      (¬ good → Answers s (.writeScene src tag index record) src 3 tag .badValue [] s) ∧
      (good → (∀ j : Fin 4, ∀ a, s.sx.slots[j.val] = some a → a.scene ≠ n) →
        Answers s (.writeScene src tag index record) src 3 tag .ok [] { s with sx := u }) ∧
      (∀ i : Fin 4, good → (s.sx.slots[i.val]).any (fun a => a.scene == n) = true →
        (∀ j : Fin 4, j < i → (s.sx.slots[j.val]).any (fun a => a.scene == n) = false) →
        (∀ j : Fin 4, j ≠ i → (s.sx.slots[j.val]).isSome = true → ∃ d ∈ s.sx.delayed, d.slot = j) →
        Answers s (.writeScene src tag index record) src 3 tag .ok []
          (State.noting { s with sx := { u with
            slots := upd u.slots i fun _ => none, delayed := s.sx.delayed.filter fun d => d.slot != i } }
            .sceneReplaced n.val 0))) ∧
    (∀ count : Nat, 1 ≤ count → count ≤ 3 → record.length = 1 + 5 * count → byteAt record 0 = byteOf count →
      index.toNat + count ≤ 1024 →
      let a := fun k : Nat => decodeAction record k
      let covered := ∃ k : Fin 3, k.val < count ∧ ∃ n : Fin 128, (s.sx.scenes[n.val]).valid = true ∧
        (s.sx.scenes[n.val]).first ≤ index.toNat + k.val ∧
        index.toNat + k.val < (s.sx.scenes[n.val]).first + (s.sx.scenes[n.val]).count
      let astray := ∃ k : Fin 3, k.val < count ∧ 95 < (a k.val).load
      (covered → Answers s (.writeAction src tag index record) src 3 tag .inUse [] s) ∧
      (¬ covered → astray → Answers s (.writeAction src tag index record) src 3 tag .badValue [] s) ∧
      (¬ covered → ¬ astray → Answers s (.writeAction src tag index record) src 3 tag
        (if ∀ k : Fin 3, k.val < count → (a k.val).level ≤ 1000 then .ok else .okClamped) []
        { s with sx := { s.sx with actions := mapIdx s.sx.actions fun i x =>
            if index.toNat ≤ i.val ∧ i.val < index.toNat + count then
              { a (i.val - index.toNat) with level := min (a (i.val - index.toNat)).level 1000 }
            else x } }))

/-- R78, R79, R101, R164: WRITE_LOAD. A load that is not OFF or has a frame due is in use, and so is a bound one whose
record is not a valid MOTOR load's; else the record is clamped, and refused when a check fails or stored, with every runtime
field as after a reset but the bound channel, which a bound MOTOR load keeps; a waiting-channel mark is cleared, the START
of a channel that waited for that load alone being written.

R124, R125, R164: WRITE_CHANNEL. Every part is refused with IN_USE while the channel is active. Part 0 with a valid
record that breaks a test of R124 is refused with BAD_VALUE; with one that keeps them it binds the motor load and no
other, and makes an OFF channel IDLE while one in IDLE or FAULT keeps its state; with the valid bit clear it stores the
record, unbinds the channel's load and makes the channel OFF. Parts 1 to 3 store their fields and leave the rest of the
channel, part 2 with its timings clamped.

Model's choices it rests on: log 3, 6, 11. -/
def Obligations.LoadsAndChannelsStored : Prop :=
  (∀ (s : State) (src : Source) (tag : Byte) (index : Half) (record : List Byte) (n : Fin 96) (r : LoadCfg),
    s.canAnswer src → record.length = 10 → index.toNat = n.val → decodeLoad record = some r →
    let l := s.lbu.loads[n.val]
    let q : LoadCfg := { r with
      full := min r.full 3000
      inrush := if r.type = .dimmed then r.inrush else min r.inrush 6000
      minLevel := if r.type = .dimmed then max 1 (min r.minLevel 1000) else r.minLevel }
    let bad := q.device = 0 ∨ 120 < q.device.toNat ∨ (q.type ≠ .dimmed ∧ q.inrush < q.full) ∨
      (q.valid = true ∧ ∃ m : Fin 96, m ≠ n ∧ (s.lbu.loads[m.val]).cfg.valid = true ∧
        (s.lbu.loads[m.val]).cfg.device = q.device ∧ (s.lbu.loads[m.val]).cfg.output = q.output)
    let open_ := l.bound = none ∨ (r.valid = true ∧ r.type = .motor)
    (l.state ≠ .off ∨ l.due = true → Answers s (.writeLoad src tag index record) src 3 tag .inUse [] s) ∧
    (l.bound.isSome = true → l.state = .off → l.due = false → (r.valid = false ∨ r.type ≠ .motor) →
      Answers s (.writeLoad src tag index record) src 3 tag .inUse [] s) ∧
    (open_ → l.state = .off → l.due = false → bad →
      Answers s (.writeLoad src tag index record) src 3 tag .badValue [] s) ∧
    (open_ → l.state = .off → l.due = false → ¬ bad → s.markOpen n →
      Answers s (.writeLoad src tag index record) src 3 tag (if q = r then .ok else .okClamped) []
        { s.unmarked n with lbu := { s.lbu with loads := upd s.lbu.loads n fun l =>
            { cfg := q, state := .off, granted := 0, committed := 0, requested := 0, demand := 0, fade := .stopped
              inrushTimer := .stopped, lastFade := 0, due := false, bound := l.bound, waiting := none
              shedOrder := l.shedOrder } } })) ∧
  (∀ (s : State) (src : Source) (tag ch : Byte) (record : List Byte) (c : Fin 4), s.canAnswer src → ch.toNat = c.val →
    ((s.chan c).state.active = true →
      (∀ r, record.length = 3 → decodePart0 record = some r →
        Answers s (.writeChannelPart0 src tag ch record) src 3 tag .inUse [] s) ∧
      (∀ r, record.length = 9 → decodePart1 record = some r →
        Answers s (.writeChannelPart1 src tag ch record) src 3 tag .inUse [] s) ∧
      (record.length = 12 → Answers s (.writeChannelPart2 src tag ch record) src 3 tag .inUse [] s) ∧
      (∀ r, record.length = 14 → decodePart3 record = some r →
        Answers s (.writeChannelPart3 src tag ch record) src 3 tag .inUse [] s)) ∧
    ((s.chan c).state.active = false →
      (∀ r, record.length = 3 → decodePart0 record = some r →
        let bad := r.controller = 0 ∨ 120 < r.controller.toNat ∨ r.exclusion.getLsbD c.val = true ∨
          (s.lbu.loads[r.motorLoad.val]).cfg.valid = false ∨ (s.lbu.loads[r.motorLoad.val]).cfg.type ≠ .motor ∨
          (∃ d : Fin 4, d ≠ c ∧ (s.lbu.loads[r.motorLoad.val]).bound = some d) ∨
          ∃ d : Fin 4, d ≠ c ∧ (s.chan d).cfg.valid = true ∧ (s.chan d).cfg.controller = r.controller
        let u := fun load : Option (Fin 96) =>
          ({ s with lbu := { s.lbu with
              loads := mapIdx s.lbu.loads fun n l =>
                if load = some n then { l with bound := some c }
                else if l.bound = some c then { l with bound := none } else l } }.modChan c fun x =>
            { x with cfg := { x.cfg with valid := r.valid, exclusion := r.exclusion, controller := r.controller
                                         motorLoad := r.motorLoad } })
        (r.valid = true → bad → Answers s (.writeChannelPart0 src tag ch record) src 3 tag .badValue [] s) ∧
        (r.valid = true → ¬ bad → (s.chan c).state = .off →
          Answers s (.writeChannelPart0 src tag ch record) src 3 tag .ok [] ((u (some r.motorLoad)).atIdle c)) ∧
        (r.valid = true → ¬ bad → (s.chan c).state = .idle ∨ (s.chan c).state = .fault →
          Answers s (.writeChannelPart0 src tag ch record) src 3 tag .ok [] (u (some r.motorLoad))) ∧
        (r.valid = false →
          Answers s (.writeChannelPart0 src tag ch record) src 3 tag .ok []
            ((u none).modChan c fun x =>
              { x with state := .off, phase := .none, owner := none, timers := .stopped, enable := false }))) ∧
      (∀ r, record.length = 9 → decodePart1 record = some r →
        Answers s (.writeChannelPart1 src tag ch record) src 3 tag .ok []
          (s.modChan c fun x => { x with cfg := { x.cfg with consoles := r } })) ∧
      (record.length = 12 →
        let t := decodePart2 record
        let q : Timings :=
          { armWindow := max 100 (min 5000 t.armWindow), runGap := max 50 (min 1000 t.runGap)
            startTimeout := max 100 (min 2000 t.startTimeout), stopTimeout := max 100 (min 5000 t.stopTimeout)
            travelLimit := max 1 (min 600 t.travelLimit), jogTime := max 50 (min 1000 t.jogTime) }
        Answers s (.writeChannelPart2 src tag ch record) src 3 tag (if q = t then .ok else .okClamped) []
          (s.modChan c fun x => { x with cfg := { x.cfg with timings := q } })) ∧
      (∀ r, record.length = 14 → decodePart3 record = some r →
        Answers s (.writeChannelPart3 src tag ch record) src 3 tag .ok []
          (s.modChan c fun x => { x with cfg := { x.cfg with listA := r.1, listB := r.2 } }))))

/-- R102, R163: ASSIGN_ZONE. The own zone of an unassigned part becomes the zone, and LBU makes a level try; an assigned
part answers OK to its own zone and ALREADY_SET to another.

R74, R76, R87, R166: SET_MODE with a manual mode makes it the present mode, and FROM_POINT sets the selector and
takes the value of a VALID point of 0 to 3; the present mode again is no change.

R83, R84, R87 to R89: a change of the mode. The limit-decrease walk sheds its loads, any number, and the
OVERCOMMIT flags are set where a sum is still above its new limit and clear elsewhere, each that goes from clear to set with
notice OVERCOMMIT and the deficit, at most 65535; a limit that has risen makes a release event.

R139, R166: CLEAR. A channel in FAULT with nothing present becomes IDLE, with something present stays and answers
STILL_PRESENT without a notice; a channel in any other state answers NOT_STATE.

Model's choices it rests on: log 3, 6, 12, 17, 28. -/
def Obligations.ActingRequests : Prop :=
  (∀ (s : State) (src : Source) (tag z : Byte), s.canAnswer src → 1 ≤ z → z ≤ 60 →
    (s.mr.ownZone = 0 → AnswersTried s (.assignZone src tag z) src 2 tag .ok []
      { s with mr := { s.mr with ownZone := z } }) ∧
    (s.mr.ownZone = z → Answers s (.assignZone src tag z) src 2 tag .ok [] s) ∧
    (s.mr.ownZone ≠ 0 → s.mr.ownZone ≠ z → Answers s (.assignZone src tag z) src 2 tag .alreadySet [] s)) ∧
  (∀ (s : State) (src : Source) (tag p : Byte), s.canAnswer src →
    let changes := fun (i : Instr) (u : Budget) =>
      let v : State := { s with lbu := u }
      u.walkable 0 →
      let w := v.decreased.overcommitted
      (s.noRise u → AnswersWith s i src 6 tag .ok [] w (v.sheds w)) ∧
      (¬ s.noRise u → w.shedFree → AnswersReleased s i src 6 tag .ok [] w (v.sheds w))
    (∀ m : Fin 4,
      (m = s.lbu.mode.index → Answers s (.setModeManual src tag (byteOf m.val) p) src 6 tag .ok []
        { s with lbu := { s.lbu with selector := .manual } }) ∧
      (m ≠ s.lbu.mode.index →
        changes (.setModeManual src tag (byteOf m.val) p) { s.lbu with selector := .manual, mode := .ofIndex m })) ∧
    (∀ k : Fin 64, p.toNat = k.val →
      let x := (s.pm.points[k.val]).state
      (x = .unknown → Answers s (.setModeFromPoint src tag p) src 6 tag .ok []
        { s with lbu := { s.lbu with selector := .fromPoint k } }) ∧
      (∀ v n, x = .valid v n → 4 ≤ v.toNat → Answers s (.setModeFromPoint src tag p) src 6 tag .ok []
        { s with lbu := { s.lbu with selector := .fromPoint k } }) ∧
      (∀ v n, ∀ m : Fin 4, x = .valid v n → v.toNat = m.val →
        (m = s.lbu.mode.index → Answers s (.setModeFromPoint src tag p) src 6 tag .ok []
          { s with lbu := { s.lbu with selector := .fromPoint k } }) ∧
        (m ≠ s.lbu.mode.index →
          changes (.setModeFromPoint src tag p) { s.lbu with selector := .fromPoint k, mode := .ofIndex m })))) ∧
  (∀ (s : State) (src : Source) (tag ch : Byte) (c : Fin 4), s.canAnswer src → ch.toNat = c.val →
    let clear := s.ds.loopOpen = false ∧ s.ds.trip[c.val] = false ∧
      s.lbu.trip[((s.lbu.loads[(s.chan c).cfg.motorLoad.val]).cfg.branch).val] = false ∧ s.zp.segment = .normal
    ((s.chan c).state = .fault → clear → Answers s (.clear src tag ch) src 8 tag .ok [] (s.atIdle c)) ∧
    ((s.chan c).state = .fault → ¬ clear → Answers s (.clear src tag ch) src 8 tag .stillPresent [] s) ∧
    ((s.chan c).state ≠ .fault → Answers s (.clear src tag ch) src 8 tag .notState [] s)) ∧
  ([SourceMode.shore, .genOne, .genTwo, .inverter].map SourceMode.index = [0, 1, 2, 3] ∧
    ∀ m : Fin 4, (SourceMode.ofIndex m).index = m)

/-- R32, R104, R167: RESET_SEGMENT. The segment is NORMAL, a reception abandoned, the shifter, the queue and the slots
emptied, the recovery timer stopped, and the stuck timer runs on a dominant line; every drawing SWITCHED or DIMMED load is
due again, and LBU makes a level try. Here the buffers that the segment holds not being free (R36).

R84, R129, R131, R148: at a RESET_SEGMENT every active channel, in ascending number, goes to FAULT with cause SEGMENT, with
no HALT; the release of its motor load, if it holds one, makes a release event. Here the whole state for any number of
active channels, and what becomes of the channels.

R34, R48, R66, R77, R106, R122, R150, R162, R167, R170: RESTART. Every block takes its RESTART values, configuration,
limits, mode, hop budget, managers and own zone kept. Asked for from the trunk, whose links are then DOWN, the reply stays
pending; asked for from the segment, it is sent at once.

R167: a try to send the pending reply of a RESTART, at any port: it is sent at a free buffer and an accepting queue, and
then is pending no longer; else it stays pending, and nothing is done.

Model's choices it rests on: log 2, 3, 5, 6, 9, 10, 12, 17, 18, 27. -/
def Obligations.ResetAndRestart : Prop :=
  (∀ (s : State) (src : Source) (tag : Byte), s.canAnswer src → s.segmentHolds →
    let u := s.segmentEmptied
    let base : State := { u with zp := { u.zp with
      segment := .normal, recovery := none, stuck := if s.zp.lineDominant then some (s.now + 100) else none } }
    let v := (base.faultingAll (fun c => (s.chan c).state.active) .segment).levelsDue
    ((∀ c : Fin 4, s.drives c = false) → AnswersTried s (.resetSegment src tag) src 9 tag .ok [] v) ∧
    ((∃ c : Fin 4, s.drives c = true) → v.shedFree → AnswersReleased s (.resetSegment src tag) src 9 tag .ok [] v true) ∧
    ∃ t, exec (.resetSegment src tag) s = .next t ∧ t.zp.segment = .normal ∧ s.faultsActive t .segment) ∧
  (∀ (s : State) (src : Source) (tag : Byte), s.takesRequest src →
    let restarted := fun t : State =>
      (∀ k : Trunk, t.trunk k =
        { link := .down, silence := none, beat := some (s.now + 20), rx := none, tx := none, queue := ⟨[], 0⟩
          counters := ⟨0, 0, 0, 0, 0, 0⟩ }) ∧
      t.zp.segment = .normal ∧ t.zp.rx = none ∧ t.zp.shifter = none ∧ t.zp.sending = false ∧
      t.zp.queue = ⟨[], 0⟩ ∧ t.zp.counters = ⟨0, 0, 0, 0, 0, 0⟩ ∧ t.zp.lineDominant = s.zp.lineDominant ∧
      t.zp.lineIdle = s.zp.lineIdle ∧
      t.zp.stuck = (if s.zp.lineDominant then some (s.now + 100) else none) ∧ t.zp.recovery = none ∧
      (∀ b : Fin 48, (t.buf b).free = true ∧ (t.buf b).refs = 0) ∧ t.pool.riseLbu = 0 ∧ t.pool.riseMr = 0 ∧
      t.fe = { s.fe with hold := [] } ∧
      (∀ k : Fin 64, t.pm.points[k.val] = { s.pm.points[k.val] with state := .unknown }) ∧
      (∀ n : Fin 96,
        let l := s.lbu.loads[n.val]
        t.lbu.loads[n.val] = { Load.zero with cfg := l.cfg, bound := l.bound }) ∧
      t.lbu.limits = s.lbu.limits ∧ t.lbu.mode = s.lbu.mode ∧ t.lbu.selector = s.lbu.selector ∧
      t.lbu.trip = s.lbu.trip ∧ t.lbu.overBranch = #v[false, false, false, false] ∧ t.lbu.overTotal = false ∧
      t.lbu.admission = [] ∧ t.lbu.shedList = [] ∧
      t.sx.scenes = s.sx.scenes ∧ t.sx.actions = s.sx.actions ∧ t.sx.delayed = [] ∧
      (∀ i : Fin 4, t.sx.slots[i.val] = none) ∧
      (∀ c : Fin 4,
        let x := s.chan c
        t.chan c = { x with state := if x.cfg.valid then .idle else .off
                            phase := .none, owner := none, stopCause := .none
                            timers := ⟨none, none, none, none, none, none⟩, command := none, enable := false }) ∧
      t.ds.loopOpen = s.ds.loopOpen ∧ t.ds.trip = s.ds.trip ∧ t.ie = s.ie ∧
      t.mr = { s.mr with notices := [], headMark := 0, waitUp := false
                         pendingReply := some ⟨10, tag, src.origin, src.port⟩ } ∧
      t.now = s.now ∧ t.pending = s.pending
    (src.port ≠ .zone → ∃ t, exec (.restart src tag) s = .next t ∧ restarted t) ∧
    (src.port = .zone → ∃ t b, restarted t ∧ exec (.restart src tag) s = .next
      { t.repliedAt .zone b src.origin 10 tag .ok [] with mr := { t.mr with pendingReply := none } })) ∧
  (∀ (s : State) (r : PendingReply), s.mr.pendingReply = some r →
    (1 ≤ s.pool.freeCount → s.takesReply r.port = true → s.replyOpen r.port → ∃ b, (s.buf b).free = true ∧
      s.replyTry =
        { s.repliedAt r.port b r.origin r.code r.tag .ok [] with mr := { s.mr with pendingReply := none } }) ∧
    (s.pool.freeCount = 0 ∨ s.takesReply r.port = false → s.replyTry = s)) ∧
  (∀ s : State, s.mr.pendingReply = none → s.replyTry = s)
end

