-- ==== Sys2Proof/Laws/State.lean ====
section
/-! SUPPORT. Laws/State.lean: entries of changed tables, and for each update of the state one lemma per block it
leaves alone. -/

namespace Sys2Proof

/-! ### Tables -/

theorem upd_get {α : Type} {n : Nat} (v : Vector α n) (i : Fin n) (f : α → α) (j : Nat) (h : j < n) :
    (upd v i f)[j] = if i.val = j then f v[j] else v[j] := by
  unfold upd
  rw [Vector.getElem_set]
  split
  · next e => subst e; rfl
  · rfl

@[simp] theorem upd_get_self {α : Type} {n : Nat} (v : Vector α n) (i : Fin n) (f : α → α) :
    (upd v i f)[i.val] = f v[i.val] := by rw [upd_get]; simp

theorem upd_get_ne {α : Type} {n : Nat} (v : Vector α n) (i j : Fin n) (f : α → α) (h : j ≠ i) :
    (upd v i f)[j.val] = v[j.val] := by
  rw [upd_get, if_neg]
  intro e
  exact h (Fin.ext e.symm)

@[simp] theorem mapAll_get {α : Type} {n : Nat} (v : Vector α n) (f : α → α) (j : Nat) (h : j < n) :
    (mapAll v f)[j] = f v[j] := by simp [mapAll]

@[simp] theorem mapIdx_get {α : Type} {n : Nat} (v : Vector α n) (f : Fin n → α → α) (j : Nat) (h : j < n) :
    (mapIdx v f)[j] = f ⟨j, h⟩ v[j] := by simp [mapIdx]

namespace Machine

/-! ### Ports -/

@[simp] theorem State.modTrunk_zp (s : State) (t : Trunk) (f : TrunkPort → TrunkPort) : (s.modTrunk t f).zp = s.zp := by cases t <;> rfl
@[simp] theorem State.modTrunk_pool (s : State) (t : Trunk) (f : TrunkPort → TrunkPort) : (s.modTrunk t f).pool = s.pool := by cases t <;> rfl
@[simp] theorem State.modTrunk_fe (s : State) (t : Trunk) (f : TrunkPort → TrunkPort) : (s.modTrunk t f).fe = s.fe := by cases t <;> rfl
@[simp] theorem State.modTrunk_pm (s : State) (t : Trunk) (f : TrunkPort → TrunkPort) : (s.modTrunk t f).pm = s.pm := by cases t <;> rfl
@[simp] theorem State.modTrunk_lbu (s : State) (t : Trunk) (f : TrunkPort → TrunkPort) : (s.modTrunk t f).lbu = s.lbu := by cases t <;> rfl
@[simp] theorem State.modTrunk_sx (s : State) (t : Trunk) (f : TrunkPort → TrunkPort) : (s.modTrunk t f).sx = s.sx := by cases t <;> rfl
@[simp] theorem State.modTrunk_ds (s : State) (t : Trunk) (f : TrunkPort → TrunkPort) : (s.modTrunk t f).ds = s.ds := by cases t <;> rfl
@[simp] theorem State.modTrunk_ie (s : State) (t : Trunk) (f : TrunkPort → TrunkPort) : (s.modTrunk t f).ie = s.ie := by cases t <;> rfl
@[simp] theorem State.modTrunk_mr (s : State) (t : Trunk) (f : TrunkPort → TrunkPort) : (s.modTrunk t f).mr = s.mr := by cases t <;> rfl
@[simp] theorem State.modTrunk_now (s : State) (t : Trunk) (f : TrunkPort → TrunkPort) : (s.modTrunk t f).now = s.now := by cases t <;> rfl
@[simp] theorem State.modTrunk_pending (s : State) (t : Trunk) (f : TrunkPort → TrunkPort) : (s.modTrunk t f).pending = s.pending := by cases t <;> rfl

@[simp] theorem State.modTrunk_trunk (s : State) (t : Trunk) (f : TrunkPort → TrunkPort) :
    (s.modTrunk t f).trunk t = f (s.trunk t) := by cases t <;> rfl

@[simp] theorem State.modZone_tpa (s : State) (f : ZonePort → ZonePort) : (s.modZone f).tpa = s.tpa := rfl
@[simp] theorem State.modZone_tpb (s : State) (f : ZonePort → ZonePort) : (s.modZone f).tpb = s.tpb := rfl
@[simp] theorem State.modZone_pool (s : State) (f : ZonePort → ZonePort) : (s.modZone f).pool = s.pool := rfl
@[simp] theorem State.modZone_fe (s : State) (f : ZonePort → ZonePort) : (s.modZone f).fe = s.fe := rfl
@[simp] theorem State.modZone_pm (s : State) (f : ZonePort → ZonePort) : (s.modZone f).pm = s.pm := rfl
@[simp] theorem State.modZone_lbu (s : State) (f : ZonePort → ZonePort) : (s.modZone f).lbu = s.lbu := rfl
@[simp] theorem State.modZone_sx (s : State) (f : ZonePort → ZonePort) : (s.modZone f).sx = s.sx := rfl
@[simp] theorem State.modZone_ds (s : State) (f : ZonePort → ZonePort) : (s.modZone f).ds = s.ds := rfl
@[simp] theorem State.modZone_ie (s : State) (f : ZonePort → ZonePort) : (s.modZone f).ie = s.ie := rfl
@[simp] theorem State.modZone_mr (s : State) (f : ZonePort → ZonePort) : (s.modZone f).mr = s.mr := rfl
@[simp] theorem State.modZone_now (s : State) (f : ZonePort → ZonePort) : (s.modZone f).now = s.now := rfl
@[simp] theorem State.modZone_pending (s : State) (f : ZonePort → ZonePort) : (s.modZone f).pending = s.pending := rfl

@[simp] theorem State.modZone_zp (s : State) (f : ZonePort → ZonePort) : (s.modZone f).zp = f s.zp := rfl

@[simp] theorem State.beginAttempt_tpa (s : State) : (s.beginAttempt).tpa = s.tpa := rfl
@[simp] theorem State.beginAttempt_tpb (s : State) : (s.beginAttempt).tpb = s.tpb := rfl
@[simp] theorem State.beginAttempt_pool (s : State) : (s.beginAttempt).pool = s.pool := rfl
@[simp] theorem State.beginAttempt_fe (s : State) : (s.beginAttempt).fe = s.fe := rfl
@[simp] theorem State.beginAttempt_pm (s : State) : (s.beginAttempt).pm = s.pm := rfl
@[simp] theorem State.beginAttempt_lbu (s : State) : (s.beginAttempt).lbu = s.lbu := rfl
@[simp] theorem State.beginAttempt_sx (s : State) : (s.beginAttempt).sx = s.sx := rfl
@[simp] theorem State.beginAttempt_ds (s : State) : (s.beginAttempt).ds = s.ds := rfl
@[simp] theorem State.beginAttempt_ie (s : State) : (s.beginAttempt).ie = s.ie := rfl
@[simp] theorem State.beginAttempt_mr (s : State) : (s.beginAttempt).mr = s.mr := rfl
@[simp] theorem State.beginAttempt_now (s : State) : (s.beginAttempt).now = s.now := rfl
@[simp] theorem State.beginAttempt_pending (s : State) : (s.beginAttempt).pending = s.pending := rfl

@[simp] theorem State.clearCounters_pool (s : State) (p : Port) : (s.clearCounters p).pool = s.pool := by cases p <;> rfl
@[simp] theorem State.clearCounters_fe (s : State) (p : Port) : (s.clearCounters p).fe = s.fe := by cases p <;> rfl
@[simp] theorem State.clearCounters_pm (s : State) (p : Port) : (s.clearCounters p).pm = s.pm := by cases p <;> rfl
@[simp] theorem State.clearCounters_lbu (s : State) (p : Port) : (s.clearCounters p).lbu = s.lbu := by cases p <;> rfl
@[simp] theorem State.clearCounters_sx (s : State) (p : Port) : (s.clearCounters p).sx = s.sx := by cases p <;> rfl
@[simp] theorem State.clearCounters_ds (s : State) (p : Port) : (s.clearCounters p).ds = s.ds := by cases p <;> rfl
@[simp] theorem State.clearCounters_ie (s : State) (p : Port) : (s.clearCounters p).ie = s.ie := by cases p <;> rfl
@[simp] theorem State.clearCounters_mr (s : State) (p : Port) : (s.clearCounters p).mr = s.mr := by cases p <;> rfl
@[simp] theorem State.clearCounters_now (s : State) (p : Port) : (s.clearCounters p).now = s.now := by cases p <;> rfl
@[simp] theorem State.clearCounters_pending (s : State) (p : Port) : (s.clearCounters p).pending = s.pending := by cases p <;> rfl

/-! ### Clock -/

@[simp] theorem State.reach_tpa (s : State) (d : Nat) : (s.reach d).tpa = s.tpa := rfl
@[simp] theorem State.reach_tpb (s : State) (d : Nat) : (s.reach d).tpb = s.tpb := rfl
@[simp] theorem State.reach_zp (s : State) (d : Nat) : (s.reach d).zp = s.zp := rfl
@[simp] theorem State.reach_pool (s : State) (d : Nat) : (s.reach d).pool = s.pool := rfl
@[simp] theorem State.reach_fe (s : State) (d : Nat) : (s.reach d).fe = s.fe := rfl
@[simp] theorem State.reach_pm (s : State) (d : Nat) : (s.reach d).pm = s.pm := rfl
@[simp] theorem State.reach_lbu (s : State) (d : Nat) : (s.reach d).lbu = s.lbu := rfl
@[simp] theorem State.reach_sx (s : State) (d : Nat) : (s.reach d).sx = s.sx := rfl
@[simp] theorem State.reach_ds (s : State) (d : Nat) : (s.reach d).ds = s.ds := rfl
@[simp] theorem State.reach_ie (s : State) (d : Nat) : (s.reach d).ie = s.ie := rfl
@[simp] theorem State.reach_mr (s : State) (d : Nat) : (s.reach d).mr = s.mr := rfl
@[simp] theorem State.reach_pending (s : State) (d : Nat) : (s.reach d).pending = s.pending := rfl

@[simp] theorem State.reach_now (s : State) (d : Nat) : (s.reach d).now = max s.now d := rfl

/-! ### Pool -/

@[simp] theorem State.modBuf_tpa (s : State) (b : Fin 48) (f : Buffer → Buffer) : (s.modBuf b f).tpa = s.tpa := rfl
@[simp] theorem State.modBuf_tpb (s : State) (b : Fin 48) (f : Buffer → Buffer) : (s.modBuf b f).tpb = s.tpb := rfl
@[simp] theorem State.modBuf_zp (s : State) (b : Fin 48) (f : Buffer → Buffer) : (s.modBuf b f).zp = s.zp := rfl
@[simp] theorem State.modBuf_fe (s : State) (b : Fin 48) (f : Buffer → Buffer) : (s.modBuf b f).fe = s.fe := rfl
@[simp] theorem State.modBuf_pm (s : State) (b : Fin 48) (f : Buffer → Buffer) : (s.modBuf b f).pm = s.pm := rfl
@[simp] theorem State.modBuf_lbu (s : State) (b : Fin 48) (f : Buffer → Buffer) : (s.modBuf b f).lbu = s.lbu := rfl
@[simp] theorem State.modBuf_sx (s : State) (b : Fin 48) (f : Buffer → Buffer) : (s.modBuf b f).sx = s.sx := rfl
@[simp] theorem State.modBuf_ds (s : State) (b : Fin 48) (f : Buffer → Buffer) : (s.modBuf b f).ds = s.ds := rfl
@[simp] theorem State.modBuf_ie (s : State) (b : Fin 48) (f : Buffer → Buffer) : (s.modBuf b f).ie = s.ie := rfl
@[simp] theorem State.modBuf_mr (s : State) (b : Fin 48) (f : Buffer → Buffer) : (s.modBuf b f).mr = s.mr := rfl
@[simp] theorem State.modBuf_now (s : State) (b : Fin 48) (f : Buffer → Buffer) : (s.modBuf b f).now = s.now := rfl
@[simp] theorem State.modBuf_pending (s : State) (b : Fin 48) (f : Buffer → Buffer) : (s.modBuf b f).pending = s.pending := rfl

@[simp] theorem State.giveBack_tpa (s : State) (b : Fin 48) : (s.giveBack b).tpa = s.tpa := rfl
@[simp] theorem State.giveBack_tpb (s : State) (b : Fin 48) : (s.giveBack b).tpb = s.tpb := rfl
@[simp] theorem State.giveBack_zp (s : State) (b : Fin 48) : (s.giveBack b).zp = s.zp := rfl
@[simp] theorem State.giveBack_fe (s : State) (b : Fin 48) : (s.giveBack b).fe = s.fe := rfl
@[simp] theorem State.giveBack_pm (s : State) (b : Fin 48) : (s.giveBack b).pm = s.pm := rfl
@[simp] theorem State.giveBack_lbu (s : State) (b : Fin 48) : (s.giveBack b).lbu = s.lbu := rfl
@[simp] theorem State.giveBack_sx (s : State) (b : Fin 48) : (s.giveBack b).sx = s.sx := rfl
@[simp] theorem State.giveBack_ds (s : State) (b : Fin 48) : (s.giveBack b).ds = s.ds := rfl
@[simp] theorem State.giveBack_ie (s : State) (b : Fin 48) : (s.giveBack b).ie = s.ie := rfl
@[simp] theorem State.giveBack_mr (s : State) (b : Fin 48) : (s.giveBack b).mr = s.mr := rfl
@[simp] theorem State.giveBack_now (s : State) (b : Fin 48) : (s.giveBack b).now = s.now := rfl
@[simp] theorem State.giveBack_pending (s : State) (b : Fin 48) : (s.giveBack b).pending = s.pending := rfl

@[simp] theorem State.rise_tpa (s : State) : (s.rise).tpa = s.tpa := rfl
@[simp] theorem State.rise_tpb (s : State) : (s.rise).tpb = s.tpb := rfl
@[simp] theorem State.rise_zp (s : State) : (s.rise).zp = s.zp := rfl
@[simp] theorem State.rise_fe (s : State) : (s.rise).fe = s.fe := rfl
@[simp] theorem State.rise_pm (s : State) : (s.rise).pm = s.pm := rfl
@[simp] theorem State.rise_lbu (s : State) : (s.rise).lbu = s.lbu := rfl
@[simp] theorem State.rise_sx (s : State) : (s.rise).sx = s.sx := rfl
@[simp] theorem State.rise_ds (s : State) : (s.rise).ds = s.ds := rfl
@[simp] theorem State.rise_ie (s : State) : (s.rise).ie = s.ie := rfl
@[simp] theorem State.rise_mr (s : State) : (s.rise).mr = s.mr := rfl
@[simp] theorem State.rise_now (s : State) : (s.rise).now = s.now := rfl
@[simp] theorem State.rise_pending (s : State) : (s.rise).pending = s.pending := rfl

@[simp] theorem State.addRef_tpa (s : State) (b : Fin 48) : (s.addRef b).tpa = s.tpa := rfl
@[simp] theorem State.addRef_tpb (s : State) (b : Fin 48) : (s.addRef b).tpb = s.tpb := rfl
@[simp] theorem State.addRef_zp (s : State) (b : Fin 48) : (s.addRef b).zp = s.zp := rfl
@[simp] theorem State.addRef_fe (s : State) (b : Fin 48) : (s.addRef b).fe = s.fe := rfl
@[simp] theorem State.addRef_pm (s : State) (b : Fin 48) : (s.addRef b).pm = s.pm := rfl
@[simp] theorem State.addRef_lbu (s : State) (b : Fin 48) : (s.addRef b).lbu = s.lbu := rfl
@[simp] theorem State.addRef_sx (s : State) (b : Fin 48) : (s.addRef b).sx = s.sx := rfl
@[simp] theorem State.addRef_ds (s : State) (b : Fin 48) : (s.addRef b).ds = s.ds := rfl
@[simp] theorem State.addRef_ie (s : State) (b : Fin 48) : (s.addRef b).ie = s.ie := rfl
@[simp] theorem State.addRef_mr (s : State) (b : Fin 48) : (s.addRef b).mr = s.mr := rfl
@[simp] theorem State.addRef_now (s : State) (b : Fin 48) : (s.addRef b).now = s.now := rfl
@[simp] theorem State.addRef_pending (s : State) (b : Fin 48) : (s.addRef b).pending = s.pending := rfl

@[simp] theorem State.writeOwn_tpa (s : State) (b : Fin 48) (l : List Byte) : (s.writeOwn b l).tpa = s.tpa := rfl
@[simp] theorem State.writeOwn_tpb (s : State) (b : Fin 48) (l : List Byte) : (s.writeOwn b l).tpb = s.tpb := rfl
@[simp] theorem State.writeOwn_zp (s : State) (b : Fin 48) (l : List Byte) : (s.writeOwn b l).zp = s.zp := rfl
@[simp] theorem State.writeOwn_fe (s : State) (b : Fin 48) (l : List Byte) : (s.writeOwn b l).fe = s.fe := rfl
@[simp] theorem State.writeOwn_pm (s : State) (b : Fin 48) (l : List Byte) : (s.writeOwn b l).pm = s.pm := rfl
@[simp] theorem State.writeOwn_lbu (s : State) (b : Fin 48) (l : List Byte) : (s.writeOwn b l).lbu = s.lbu := rfl
@[simp] theorem State.writeOwn_sx (s : State) (b : Fin 48) (l : List Byte) : (s.writeOwn b l).sx = s.sx := rfl
@[simp] theorem State.writeOwn_ds (s : State) (b : Fin 48) (l : List Byte) : (s.writeOwn b l).ds = s.ds := rfl
@[simp] theorem State.writeOwn_ie (s : State) (b : Fin 48) (l : List Byte) : (s.writeOwn b l).ie = s.ie := rfl
@[simp] theorem State.writeOwn_mr (s : State) (b : Fin 48) (l : List Byte) : (s.writeOwn b l).mr = s.mr := rfl
@[simp] theorem State.writeOwn_now (s : State) (b : Fin 48) (l : List Byte) : (s.writeOwn b l).now = s.now := rfl
@[simp] theorem State.writeOwn_pending (s : State) (b : Fin 48) (l : List Byte) : (s.writeOwn b l).pending = s.pending := rfl

@[simp] theorem State.storeFrame_tpa (s : State) (b : Fin 48) (l : List Byte) (g t a : Bool) : (s.storeFrame b l g t a).tpa = s.tpa := rfl
@[simp] theorem State.storeFrame_tpb (s : State) (b : Fin 48) (l : List Byte) (g t a : Bool) : (s.storeFrame b l g t a).tpb = s.tpb := rfl
@[simp] theorem State.storeFrame_zp (s : State) (b : Fin 48) (l : List Byte) (g t a : Bool) : (s.storeFrame b l g t a).zp = s.zp := rfl
@[simp] theorem State.storeFrame_fe (s : State) (b : Fin 48) (l : List Byte) (g t a : Bool) : (s.storeFrame b l g t a).fe = s.fe := rfl
@[simp] theorem State.storeFrame_pm (s : State) (b : Fin 48) (l : List Byte) (g t a : Bool) : (s.storeFrame b l g t a).pm = s.pm := rfl
@[simp] theorem State.storeFrame_lbu (s : State) (b : Fin 48) (l : List Byte) (g t a : Bool) : (s.storeFrame b l g t a).lbu = s.lbu := rfl
@[simp] theorem State.storeFrame_sx (s : State) (b : Fin 48) (l : List Byte) (g t a : Bool) : (s.storeFrame b l g t a).sx = s.sx := rfl
@[simp] theorem State.storeFrame_ds (s : State) (b : Fin 48) (l : List Byte) (g t a : Bool) : (s.storeFrame b l g t a).ds = s.ds := rfl
@[simp] theorem State.storeFrame_ie (s : State) (b : Fin 48) (l : List Byte) (g t a : Bool) : (s.storeFrame b l g t a).ie = s.ie := rfl
@[simp] theorem State.storeFrame_mr (s : State) (b : Fin 48) (l : List Byte) (g t a : Bool) : (s.storeFrame b l g t a).mr = s.mr := rfl
@[simp] theorem State.storeFrame_now (s : State) (b : Fin 48) (l : List Byte) (g t a : Bool) : (s.storeFrame b l g t a).now = s.now := rfl
@[simp] theorem State.storeFrame_pending (s : State) (b : Fin 48) (l : List Byte) (g t a : Bool) : (s.storeFrame b l g t a).pending = s.pending := rfl

@[simp] theorem State.dropRef_tpa (s : State) (b : Fin 48) : (s.dropRef b).tpa = s.tpa := by unfold State.dropRef; split <;> rfl
@[simp] theorem State.dropRef_tpb (s : State) (b : Fin 48) : (s.dropRef b).tpb = s.tpb := by unfold State.dropRef; split <;> rfl
@[simp] theorem State.dropRef_zp (s : State) (b : Fin 48) : (s.dropRef b).zp = s.zp := by unfold State.dropRef; split <;> rfl
@[simp] theorem State.dropRef_fe (s : State) (b : Fin 48) : (s.dropRef b).fe = s.fe := by unfold State.dropRef; split <;> rfl
@[simp] theorem State.dropRef_pm (s : State) (b : Fin 48) : (s.dropRef b).pm = s.pm := by unfold State.dropRef; split <;> rfl
@[simp] theorem State.dropRef_lbu (s : State) (b : Fin 48) : (s.dropRef b).lbu = s.lbu := by unfold State.dropRef; split <;> rfl
@[simp] theorem State.dropRef_sx (s : State) (b : Fin 48) : (s.dropRef b).sx = s.sx := by unfold State.dropRef; split <;> rfl
@[simp] theorem State.dropRef_ds (s : State) (b : Fin 48) : (s.dropRef b).ds = s.ds := by unfold State.dropRef; split <;> rfl
@[simp] theorem State.dropRef_ie (s : State) (b : Fin 48) : (s.dropRef b).ie = s.ie := by unfold State.dropRef; split <;> rfl
@[simp] theorem State.dropRef_mr (s : State) (b : Fin 48) : (s.dropRef b).mr = s.mr := by unfold State.dropRef; split <;> rfl
@[simp] theorem State.dropRef_now (s : State) (b : Fin 48) : (s.dropRef b).now = s.now := by unfold State.dropRef; split <;> rfl
@[simp] theorem State.dropRef_pending (s : State) (b : Fin 48) : (s.dropRef b).pending = s.pending := by unfold State.dropRef; split <;> rfl

@[simp] theorem State.dropRefs_tpa (s : State) (l : List (Fin 48)) : (s.dropRefs l).tpa = s.tpa := by
  induction l generalizing s with
  | nil => rfl
  | cons b l ih => exact (ih _).trans (State.dropRef_tpa s b)
@[simp] theorem State.dropRefs_tpb (s : State) (l : List (Fin 48)) : (s.dropRefs l).tpb = s.tpb := by
  induction l generalizing s with
  | nil => rfl
  | cons b l ih => exact (ih _).trans (State.dropRef_tpb s b)
@[simp] theorem State.dropRefs_zp (s : State) (l : List (Fin 48)) : (s.dropRefs l).zp = s.zp := by
  induction l generalizing s with
  | nil => rfl
  | cons b l ih => exact (ih _).trans (State.dropRef_zp s b)
@[simp] theorem State.dropRefs_fe (s : State) (l : List (Fin 48)) : (s.dropRefs l).fe = s.fe := by
  induction l generalizing s with
  | nil => rfl
  | cons b l ih => exact (ih _).trans (State.dropRef_fe s b)
@[simp] theorem State.dropRefs_pm (s : State) (l : List (Fin 48)) : (s.dropRefs l).pm = s.pm := by
  induction l generalizing s with
  | nil => rfl
  | cons b l ih => exact (ih _).trans (State.dropRef_pm s b)
@[simp] theorem State.dropRefs_lbu (s : State) (l : List (Fin 48)) : (s.dropRefs l).lbu = s.lbu := by
  induction l generalizing s with
  | nil => rfl
  | cons b l ih => exact (ih _).trans (State.dropRef_lbu s b)
@[simp] theorem State.dropRefs_sx (s : State) (l : List (Fin 48)) : (s.dropRefs l).sx = s.sx := by
  induction l generalizing s with
  | nil => rfl
  | cons b l ih => exact (ih _).trans (State.dropRef_sx s b)
@[simp] theorem State.dropRefs_ds (s : State) (l : List (Fin 48)) : (s.dropRefs l).ds = s.ds := by
  induction l generalizing s with
  | nil => rfl
  | cons b l ih => exact (ih _).trans (State.dropRef_ds s b)
@[simp] theorem State.dropRefs_ie (s : State) (l : List (Fin 48)) : (s.dropRefs l).ie = s.ie := by
  induction l generalizing s with
  | nil => rfl
  | cons b l ih => exact (ih _).trans (State.dropRef_ie s b)
@[simp] theorem State.dropRefs_mr (s : State) (l : List (Fin 48)) : (s.dropRefs l).mr = s.mr := by
  induction l generalizing s with
  | nil => rfl
  | cons b l ih => exact (ih _).trans (State.dropRef_mr s b)
@[simp] theorem State.dropRefs_now (s : State) (l : List (Fin 48)) : (s.dropRefs l).now = s.now := by
  induction l generalizing s with
  | nil => rfl
  | cons b l ih => exact (ih _).trans (State.dropRef_now s b)
@[simp] theorem State.dropRefs_pending (s : State) (l : List (Fin 48)) : (s.dropRefs l).pending = s.pending := by
  induction l generalizing s with
  | nil => rfl
  | cons b l ih => exact (ih _).trans (State.dropRef_pending s b)

/-- A granted buffer changes the pool only. -/
theorem State.takeBuffer_some {s t : State} {least : Nat} {b : Fin 48} (h : s.takeBuffer least = some (b, t)) :
    least ≤ s.pool.freeCount ∧ s.pool.firstFree = some b ∧
      t = s.modBuf b fun x => { x with free := false, refs := 0 } := by
  unfold State.takeBuffer at h
  split at h
  · next hf =>
    rcases hb : s.pool.firstFree with _ | b' <;> rw [hb] at h
    · cases h
    · cases h; exact ⟨hf, rfl, rfl⟩
  · cases h

@[simp] theorem State.takeReception_tpa (s : State) (p : Port) : ((s.takeReception p).2).tpa = s.tpa := by
  unfold State.takeReception
  split
  · next h => obtain ⟨-, -, rfl⟩ := State.takeBuffer_some h; rfl
  · rfl
@[simp] theorem State.takeReception_tpb (s : State) (p : Port) : ((s.takeReception p).2).tpb = s.tpb := by
  unfold State.takeReception
  split
  · next h => obtain ⟨-, -, rfl⟩ := State.takeBuffer_some h; rfl
  · rfl
@[simp] theorem State.takeReception_zp (s : State) (p : Port) : ((s.takeReception p).2).zp = s.zp := by
  unfold State.takeReception
  split
  · next h => obtain ⟨-, -, rfl⟩ := State.takeBuffer_some h; rfl
  · rfl
@[simp] theorem State.takeReception_fe (s : State) (p : Port) : ((s.takeReception p).2).fe = s.fe := by
  unfold State.takeReception
  split
  · next h => obtain ⟨-, -, rfl⟩ := State.takeBuffer_some h; rfl
  · rfl
@[simp] theorem State.takeReception_pm (s : State) (p : Port) : ((s.takeReception p).2).pm = s.pm := by
  unfold State.takeReception
  split
  · next h => obtain ⟨-, -, rfl⟩ := State.takeBuffer_some h; rfl
  · rfl
@[simp] theorem State.takeReception_lbu (s : State) (p : Port) : ((s.takeReception p).2).lbu = s.lbu := by
  unfold State.takeReception
  split
  · next h => obtain ⟨-, -, rfl⟩ := State.takeBuffer_some h; rfl
  · rfl
@[simp] theorem State.takeReception_sx (s : State) (p : Port) : ((s.takeReception p).2).sx = s.sx := by
  unfold State.takeReception
  split
  · next h => obtain ⟨-, -, rfl⟩ := State.takeBuffer_some h; rfl
  · rfl
@[simp] theorem State.takeReception_ds (s : State) (p : Port) : ((s.takeReception p).2).ds = s.ds := by
  unfold State.takeReception
  split
  · next h => obtain ⟨-, -, rfl⟩ := State.takeBuffer_some h; rfl
  · rfl
@[simp] theorem State.takeReception_ie (s : State) (p : Port) : ((s.takeReception p).2).ie = s.ie := by
  unfold State.takeReception
  split
  · next h => obtain ⟨-, -, rfl⟩ := State.takeBuffer_some h; rfl
  · rfl
@[simp] theorem State.takeReception_mr (s : State) (p : Port) : ((s.takeReception p).2).mr = s.mr := by
  unfold State.takeReception
  split
  · next h => obtain ⟨-, -, rfl⟩ := State.takeBuffer_some h; rfl
  · rfl
@[simp] theorem State.takeReception_now (s : State) (p : Port) : ((s.takeReception p).2).now = s.now := by
  unfold State.takeReception
  split
  · next h => obtain ⟨-, -, rfl⟩ := State.takeBuffer_some h; rfl
  · rfl
@[simp] theorem State.takeReception_pending (s : State) (p : Port) : ((s.takeReception p).2).pending = s.pending := by
  unfold State.takeReception
  split
  · next h => obtain ⟨-, -, rfl⟩ := State.takeBuffer_some h; rfl
  · rfl

/-! ### Forwarding and management -/

@[simp] theorem State.handOver_tpa (s : State) (b : Fin 48) (p : Port) : (s.handOver b p).tpa = s.tpa := rfl
@[simp] theorem State.handOver_tpb (s : State) (b : Fin 48) (p : Port) : (s.handOver b p).tpb = s.tpb := rfl
@[simp] theorem State.handOver_zp (s : State) (b : Fin 48) (p : Port) : (s.handOver b p).zp = s.zp := rfl
@[simp] theorem State.handOver_pool (s : State) (b : Fin 48) (p : Port) : (s.handOver b p).pool = s.pool := rfl
@[simp] theorem State.handOver_pm (s : State) (b : Fin 48) (p : Port) : (s.handOver b p).pm = s.pm := rfl
@[simp] theorem State.handOver_lbu (s : State) (b : Fin 48) (p : Port) : (s.handOver b p).lbu = s.lbu := rfl
@[simp] theorem State.handOver_sx (s : State) (b : Fin 48) (p : Port) : (s.handOver b p).sx = s.sx := rfl
@[simp] theorem State.handOver_ds (s : State) (b : Fin 48) (p : Port) : (s.handOver b p).ds = s.ds := rfl
@[simp] theorem State.handOver_ie (s : State) (b : Fin 48) (p : Port) : (s.handOver b p).ie = s.ie := rfl
@[simp] theorem State.handOver_mr (s : State) (b : Fin 48) (p : Port) : (s.handOver b p).mr = s.mr := rfl
@[simp] theorem State.handOver_now (s : State) (b : Fin 48) (p : Port) : (s.handOver b p).now = s.now := rfl
@[simp] theorem State.handOver_pending (s : State) (b : Fin 48) (p : Port) : (s.handOver b p).pending = s.pending := rfl

@[simp] theorem State.popNotice_tpa (s : State) : (s.popNotice).tpa = s.tpa := rfl
@[simp] theorem State.popNotice_tpb (s : State) : (s.popNotice).tpb = s.tpb := rfl
@[simp] theorem State.popNotice_zp (s : State) : (s.popNotice).zp = s.zp := rfl
@[simp] theorem State.popNotice_pool (s : State) : (s.popNotice).pool = s.pool := rfl
@[simp] theorem State.popNotice_fe (s : State) : (s.popNotice).fe = s.fe := rfl
@[simp] theorem State.popNotice_pm (s : State) : (s.popNotice).pm = s.pm := rfl
@[simp] theorem State.popNotice_lbu (s : State) : (s.popNotice).lbu = s.lbu := rfl
@[simp] theorem State.popNotice_sx (s : State) : (s.popNotice).sx = s.sx := rfl
@[simp] theorem State.popNotice_ds (s : State) : (s.popNotice).ds = s.ds := rfl
@[simp] theorem State.popNotice_ie (s : State) : (s.popNotice).ie = s.ie := rfl
@[simp] theorem State.popNotice_now (s : State) : (s.popNotice).now = s.now := rfl
@[simp] theorem State.popNotice_pending (s : State) : (s.popNotice).pending = s.pending := rfl

@[simp] theorem State.waitForUp_tpa (s : State) : (s.waitForUp).tpa = s.tpa := rfl
@[simp] theorem State.waitForUp_tpb (s : State) : (s.waitForUp).tpb = s.tpb := rfl
@[simp] theorem State.waitForUp_zp (s : State) : (s.waitForUp).zp = s.zp := rfl
@[simp] theorem State.waitForUp_pool (s : State) : (s.waitForUp).pool = s.pool := rfl
@[simp] theorem State.waitForUp_fe (s : State) : (s.waitForUp).fe = s.fe := rfl
@[simp] theorem State.waitForUp_pm (s : State) : (s.waitForUp).pm = s.pm := rfl
@[simp] theorem State.waitForUp_lbu (s : State) : (s.waitForUp).lbu = s.lbu := rfl
@[simp] theorem State.waitForUp_sx (s : State) : (s.waitForUp).sx = s.sx := rfl
@[simp] theorem State.waitForUp_ds (s : State) : (s.waitForUp).ds = s.ds := rfl
@[simp] theorem State.waitForUp_ie (s : State) : (s.waitForUp).ie = s.ie := rfl
@[simp] theorem State.waitForUp_now (s : State) : (s.waitForUp).now = s.now := rfl
@[simp] theorem State.waitForUp_pending (s : State) : (s.waitForUp).pending = s.pending := rfl

@[simp] theorem State.noticeSentTo_tpa (s : State) (i : Fin 2) : (s.noticeSentTo i).tpa = s.tpa := by unfold State.noticeSentTo; split <;> rfl
@[simp] theorem State.noticeSentTo_tpb (s : State) (i : Fin 2) : (s.noticeSentTo i).tpb = s.tpb := by unfold State.noticeSentTo; split <;> rfl
@[simp] theorem State.noticeSentTo_zp (s : State) (i : Fin 2) : (s.noticeSentTo i).zp = s.zp := by unfold State.noticeSentTo; split <;> rfl
@[simp] theorem State.noticeSentTo_pool (s : State) (i : Fin 2) : (s.noticeSentTo i).pool = s.pool := by unfold State.noticeSentTo; split <;> rfl
@[simp] theorem State.noticeSentTo_fe (s : State) (i : Fin 2) : (s.noticeSentTo i).fe = s.fe := by unfold State.noticeSentTo; split <;> rfl
@[simp] theorem State.noticeSentTo_pm (s : State) (i : Fin 2) : (s.noticeSentTo i).pm = s.pm := by unfold State.noticeSentTo; split <;> rfl
@[simp] theorem State.noticeSentTo_lbu (s : State) (i : Fin 2) : (s.noticeSentTo i).lbu = s.lbu := by unfold State.noticeSentTo; split <;> rfl
@[simp] theorem State.noticeSentTo_sx (s : State) (i : Fin 2) : (s.noticeSentTo i).sx = s.sx := by unfold State.noticeSentTo; split <;> rfl
@[simp] theorem State.noticeSentTo_ds (s : State) (i : Fin 2) : (s.noticeSentTo i).ds = s.ds := by unfold State.noticeSentTo; split <;> rfl
@[simp] theorem State.noticeSentTo_ie (s : State) (i : Fin 2) : (s.noticeSentTo i).ie = s.ie := by unfold State.noticeSentTo; split <;> rfl
@[simp] theorem State.noticeSentTo_now (s : State) (i : Fin 2) : (s.noticeSentTo i).now = s.now := by unfold State.noticeSentTo; split <;> rfl
@[simp] theorem State.noticeSentTo_pending (s : State) (i : Fin 2) : (s.noticeSentTo i).pending = s.pending := by unfold State.noticeSentTo; split <;> rfl

/-! ### Channels -/

@[simp] theorem State.modChan_tpa (s : State) (c : Fin 4) (f : Channel → Channel) : (s.modChan c f).tpa = s.tpa := rfl
@[simp] theorem State.modChan_tpb (s : State) (c : Fin 4) (f : Channel → Channel) : (s.modChan c f).tpb = s.tpb := rfl
@[simp] theorem State.modChan_zp (s : State) (c : Fin 4) (f : Channel → Channel) : (s.modChan c f).zp = s.zp := rfl
@[simp] theorem State.modChan_pool (s : State) (c : Fin 4) (f : Channel → Channel) : (s.modChan c f).pool = s.pool := rfl
@[simp] theorem State.modChan_fe (s : State) (c : Fin 4) (f : Channel → Channel) : (s.modChan c f).fe = s.fe := rfl
@[simp] theorem State.modChan_pm (s : State) (c : Fin 4) (f : Channel → Channel) : (s.modChan c f).pm = s.pm := rfl
@[simp] theorem State.modChan_lbu (s : State) (c : Fin 4) (f : Channel → Channel) : (s.modChan c f).lbu = s.lbu := rfl
@[simp] theorem State.modChan_sx (s : State) (c : Fin 4) (f : Channel → Channel) : (s.modChan c f).sx = s.sx := rfl
@[simp] theorem State.modChan_ie (s : State) (c : Fin 4) (f : Channel → Channel) : (s.modChan c f).ie = s.ie := rfl
@[simp] theorem State.modChan_mr (s : State) (c : Fin 4) (f : Channel → Channel) : (s.modChan c f).mr = s.mr := rfl
@[simp] theorem State.modChan_now (s : State) (c : Fin 4) (f : Channel → Channel) : (s.modChan c f).now = s.now := rfl
@[simp] theorem State.modChan_pending (s : State) (c : Fin 4) (f : Channel → Channel) : (s.modChan c f).pending = s.pending := rfl

@[simp] theorem State.modChan_loopOpen (s : State) (c : Fin 4) (f : Channel → Channel) :
    (s.modChan c f).ds.loopOpen = s.ds.loopOpen := rfl

@[simp] theorem State.modChan_trip (s : State) (c : Fin 4) (f : Channel → Channel) :
    (s.modChan c f).ds.trip = s.ds.trip := rfl

@[simp] theorem State.modChan_chan (s : State) (c : Fin 4) (f : Channel → Channel) :
    (s.modChan c f).chan c = f (s.chan c) := by simp [State.modChan, State.chan]

theorem State.modChan_chan_ne (s : State) (c d : Fin 4) (f : Channel → Channel) (h : d ≠ c) :
    (s.modChan c f).chan d = s.chan d := upd_get_ne _ _ _ _ h

theorem State.chan_congr {s t : State} (h : t.ds = s.ds) (c : Fin 4) : t.chan c = s.chan c := by
  unfold State.chan; rw [h]

/-! ### Events -/

@[simp] theorem State.event_s (s : State) : s.event.s = s := rfl
@[simp] theorem State.event_noticed (s : State) : s.event.noticed = false := rfl
@[simp] theorem State.event_dueSet (s : State) : s.event.dueSet = false := rfl
@[simp] theorem State.event_released (s : State) : s.event.released = false := rfl
@[simp] theorem State.event_shedDone (s : State) : s.event.shedDone = [] := rfl
@[simp] theorem State.event_restarted (s : State) : s.event.restarted = false := rfl

@[simp] theorem Ev.notice_tpa (e : Ev) (k : Cause) (a b : Nat) : (e.notice k a b).s.tpa = e.s.tpa := rfl
@[simp] theorem Ev.notice_tpb (e : Ev) (k : Cause) (a b : Nat) : (e.notice k a b).s.tpb = e.s.tpb := rfl
@[simp] theorem Ev.notice_zp (e : Ev) (k : Cause) (a b : Nat) : (e.notice k a b).s.zp = e.s.zp := rfl
@[simp] theorem Ev.notice_pool (e : Ev) (k : Cause) (a b : Nat) : (e.notice k a b).s.pool = e.s.pool := rfl
@[simp] theorem Ev.notice_fe (e : Ev) (k : Cause) (a b : Nat) : (e.notice k a b).s.fe = e.s.fe := rfl
@[simp] theorem Ev.notice_pm (e : Ev) (k : Cause) (a b : Nat) : (e.notice k a b).s.pm = e.s.pm := rfl
@[simp] theorem Ev.notice_lbu (e : Ev) (k : Cause) (a b : Nat) : (e.notice k a b).s.lbu = e.s.lbu := rfl
@[simp] theorem Ev.notice_sx (e : Ev) (k : Cause) (a b : Nat) : (e.notice k a b).s.sx = e.s.sx := rfl
@[simp] theorem Ev.notice_ds (e : Ev) (k : Cause) (a b : Nat) : (e.notice k a b).s.ds = e.s.ds := rfl
@[simp] theorem Ev.notice_ie (e : Ev) (k : Cause) (a b : Nat) : (e.notice k a b).s.ie = e.s.ie := rfl
@[simp] theorem Ev.notice_now (e : Ev) (k : Cause) (a b : Nat) : (e.notice k a b).s.now = e.s.now := rfl
@[simp] theorem Ev.notice_pending (e : Ev) (k : Cause) (a b : Nat) : (e.notice k a b).s.pending = e.s.pending := rfl

@[simp] theorem Ev.onBudget_tpa (e : Ev) (f : Budget → Budget) : (e.onBudget f).s.tpa = e.s.tpa := rfl
@[simp] theorem Ev.onBudget_tpb (e : Ev) (f : Budget → Budget) : (e.onBudget f).s.tpb = e.s.tpb := rfl
@[simp] theorem Ev.onBudget_zp (e : Ev) (f : Budget → Budget) : (e.onBudget f).s.zp = e.s.zp := rfl
@[simp] theorem Ev.onBudget_pool (e : Ev) (f : Budget → Budget) : (e.onBudget f).s.pool = e.s.pool := rfl
@[simp] theorem Ev.onBudget_fe (e : Ev) (f : Budget → Budget) : (e.onBudget f).s.fe = e.s.fe := rfl
@[simp] theorem Ev.onBudget_pm (e : Ev) (f : Budget → Budget) : (e.onBudget f).s.pm = e.s.pm := rfl
@[simp] theorem Ev.onBudget_sx (e : Ev) (f : Budget → Budget) : (e.onBudget f).s.sx = e.s.sx := rfl
@[simp] theorem Ev.onBudget_ds (e : Ev) (f : Budget → Budget) : (e.onBudget f).s.ds = e.s.ds := rfl
@[simp] theorem Ev.onBudget_ie (e : Ev) (f : Budget → Budget) : (e.onBudget f).s.ie = e.s.ie := rfl
@[simp] theorem Ev.onBudget_mr (e : Ev) (f : Budget → Budget) : (e.onBudget f).s.mr = e.s.mr := rfl
@[simp] theorem Ev.onBudget_now (e : Ev) (f : Budget → Budget) : (e.onBudget f).s.now = e.s.now := rfl
@[simp] theorem Ev.onBudget_pending (e : Ev) (f : Budget → Budget) : (e.onBudget f).s.pending = e.s.pending := rfl

@[simp] theorem Ev.modLoad_tpa (e : Ev) (n : Fin 96) (f : Load → Load) : (e.modLoad n f).s.tpa = e.s.tpa := rfl
@[simp] theorem Ev.modLoad_tpb (e : Ev) (n : Fin 96) (f : Load → Load) : (e.modLoad n f).s.tpb = e.s.tpb := rfl
@[simp] theorem Ev.modLoad_zp (e : Ev) (n : Fin 96) (f : Load → Load) : (e.modLoad n f).s.zp = e.s.zp := rfl
@[simp] theorem Ev.modLoad_pool (e : Ev) (n : Fin 96) (f : Load → Load) : (e.modLoad n f).s.pool = e.s.pool := rfl
@[simp] theorem Ev.modLoad_fe (e : Ev) (n : Fin 96) (f : Load → Load) : (e.modLoad n f).s.fe = e.s.fe := rfl
@[simp] theorem Ev.modLoad_pm (e : Ev) (n : Fin 96) (f : Load → Load) : (e.modLoad n f).s.pm = e.s.pm := rfl
@[simp] theorem Ev.modLoad_sx (e : Ev) (n : Fin 96) (f : Load → Load) : (e.modLoad n f).s.sx = e.s.sx := rfl
@[simp] theorem Ev.modLoad_ds (e : Ev) (n : Fin 96) (f : Load → Load) : (e.modLoad n f).s.ds = e.s.ds := rfl
@[simp] theorem Ev.modLoad_ie (e : Ev) (n : Fin 96) (f : Load → Load) : (e.modLoad n f).s.ie = e.s.ie := rfl
@[simp] theorem Ev.modLoad_mr (e : Ev) (n : Fin 96) (f : Load → Load) : (e.modLoad n f).s.mr = e.s.mr := rfl
@[simp] theorem Ev.modLoad_now (e : Ev) (n : Fin 96) (f : Load → Load) : (e.modLoad n f).s.now = e.s.now := rfl
@[simp] theorem Ev.modLoad_pending (e : Ev) (n : Fin 96) (f : Load → Load) : (e.modLoad n f).s.pending = e.s.pending := rfl

@[simp] theorem Ev.modChan_tpa (e : Ev) (c : Fin 4) (f : Channel → Channel) : (e.modChan c f).s.tpa = e.s.tpa := rfl
@[simp] theorem Ev.modChan_tpb (e : Ev) (c : Fin 4) (f : Channel → Channel) : (e.modChan c f).s.tpb = e.s.tpb := rfl
@[simp] theorem Ev.modChan_zp (e : Ev) (c : Fin 4) (f : Channel → Channel) : (e.modChan c f).s.zp = e.s.zp := rfl
@[simp] theorem Ev.modChan_pool (e : Ev) (c : Fin 4) (f : Channel → Channel) : (e.modChan c f).s.pool = e.s.pool := rfl
@[simp] theorem Ev.modChan_fe (e : Ev) (c : Fin 4) (f : Channel → Channel) : (e.modChan c f).s.fe = e.s.fe := rfl
@[simp] theorem Ev.modChan_pm (e : Ev) (c : Fin 4) (f : Channel → Channel) : (e.modChan c f).s.pm = e.s.pm := rfl
@[simp] theorem Ev.modChan_lbu (e : Ev) (c : Fin 4) (f : Channel → Channel) : (e.modChan c f).s.lbu = e.s.lbu := rfl
@[simp] theorem Ev.modChan_sx (e : Ev) (c : Fin 4) (f : Channel → Channel) : (e.modChan c f).s.sx = e.s.sx := rfl
@[simp] theorem Ev.modChan_ie (e : Ev) (c : Fin 4) (f : Channel → Channel) : (e.modChan c f).s.ie = e.s.ie := rfl
@[simp] theorem Ev.modChan_mr (e : Ev) (c : Fin 4) (f : Channel → Channel) : (e.modChan c f).s.mr = e.s.mr := rfl
@[simp] theorem Ev.modChan_now (e : Ev) (c : Fin 4) (f : Channel → Channel) : (e.modChan c f).s.now = e.s.now := rfl
@[simp] theorem Ev.modChan_pending (e : Ev) (c : Fin 4) (f : Channel → Channel) : (e.modChan c f).s.pending = e.s.pending := rfl

@[simp] theorem Ev.onScenes_tpa (e : Ev) (f : SceneExpander → SceneExpander) : (e.onScenes f).s.tpa = e.s.tpa := rfl
@[simp] theorem Ev.onScenes_tpb (e : Ev) (f : SceneExpander → SceneExpander) : (e.onScenes f).s.tpb = e.s.tpb := rfl
@[simp] theorem Ev.onScenes_zp (e : Ev) (f : SceneExpander → SceneExpander) : (e.onScenes f).s.zp = e.s.zp := rfl
@[simp] theorem Ev.onScenes_pool (e : Ev) (f : SceneExpander → SceneExpander) : (e.onScenes f).s.pool = e.s.pool := rfl
@[simp] theorem Ev.onScenes_fe (e : Ev) (f : SceneExpander → SceneExpander) : (e.onScenes f).s.fe = e.s.fe := rfl
@[simp] theorem Ev.onScenes_pm (e : Ev) (f : SceneExpander → SceneExpander) : (e.onScenes f).s.pm = e.s.pm := rfl
@[simp] theorem Ev.onScenes_lbu (e : Ev) (f : SceneExpander → SceneExpander) : (e.onScenes f).s.lbu = e.s.lbu := rfl
@[simp] theorem Ev.onScenes_ds (e : Ev) (f : SceneExpander → SceneExpander) : (e.onScenes f).s.ds = e.s.ds := rfl
@[simp] theorem Ev.onScenes_ie (e : Ev) (f : SceneExpander → SceneExpander) : (e.onScenes f).s.ie = e.s.ie := rfl
@[simp] theorem Ev.onScenes_mr (e : Ev) (f : SceneExpander → SceneExpander) : (e.onScenes f).s.mr = e.s.mr := rfl
@[simp] theorem Ev.onScenes_now (e : Ev) (f : SceneExpander → SceneExpander) : (e.onScenes f).s.now = e.s.now := rfl
@[simp] theorem Ev.onScenes_pending (e : Ev) (f : SceneExpander → SceneExpander) : (e.onScenes f).s.pending = e.s.pending := rfl

@[simp] theorem Ev.notice_dueSet (e : Ev) (k : Cause) (a b : Nat) : (e.notice k a b).dueSet = e.dueSet := rfl
@[simp] theorem Ev.notice_released (e : Ev) (k : Cause) (a b : Nat) : (e.notice k a b).released = e.released := rfl
@[simp] theorem Ev.notice_shedDone (e : Ev) (k : Cause) (a b : Nat) : (e.notice k a b).shedDone = e.shedDone := rfl
@[simp] theorem Ev.notice_restarted (e : Ev) (k : Cause) (a b : Nat) : (e.notice k a b).restarted = e.restarted := rfl

@[simp] theorem Ev.onBudget_noticed (e : Ev) (f : Budget → Budget) : (e.onBudget f).noticed = e.noticed := rfl
@[simp] theorem Ev.onBudget_dueSet (e : Ev) (f : Budget → Budget) : (e.onBudget f).dueSet = e.dueSet := rfl
@[simp] theorem Ev.onBudget_released (e : Ev) (f : Budget → Budget) : (e.onBudget f).released = e.released := rfl
@[simp] theorem Ev.onBudget_shedDone (e : Ev) (f : Budget → Budget) : (e.onBudget f).shedDone = e.shedDone := rfl
@[simp] theorem Ev.onBudget_restarted (e : Ev) (f : Budget → Budget) : (e.onBudget f).restarted = e.restarted := rfl

@[simp] theorem Ev.modLoad_noticed (e : Ev) (n : Fin 96) (f : Load → Load) : (e.modLoad n f).noticed = e.noticed := rfl
@[simp] theorem Ev.modLoad_dueSet (e : Ev) (n : Fin 96) (f : Load → Load) : (e.modLoad n f).dueSet = e.dueSet := rfl
@[simp] theorem Ev.modLoad_released (e : Ev) (n : Fin 96) (f : Load → Load) : (e.modLoad n f).released = e.released := rfl
@[simp] theorem Ev.modLoad_shedDone (e : Ev) (n : Fin 96) (f : Load → Load) : (e.modLoad n f).shedDone = e.shedDone := rfl
@[simp] theorem Ev.modLoad_restarted (e : Ev) (n : Fin 96) (f : Load → Load) : (e.modLoad n f).restarted = e.restarted := rfl

@[simp] theorem Ev.modChan_noticed (e : Ev) (c : Fin 4) (f : Channel → Channel) : (e.modChan c f).noticed = e.noticed := rfl
@[simp] theorem Ev.modChan_dueSet (e : Ev) (c : Fin 4) (f : Channel → Channel) : (e.modChan c f).dueSet = e.dueSet := rfl
@[simp] theorem Ev.modChan_released (e : Ev) (c : Fin 4) (f : Channel → Channel) : (e.modChan c f).released = e.released := rfl
@[simp] theorem Ev.modChan_shedDone (e : Ev) (c : Fin 4) (f : Channel → Channel) : (e.modChan c f).shedDone = e.shedDone := rfl
@[simp] theorem Ev.modChan_restarted (e : Ev) (c : Fin 4) (f : Channel → Channel) : (e.modChan c f).restarted = e.restarted := rfl

@[simp] theorem Ev.onState_noticed (e : Ev) (f : State → State) : (e.onState f).noticed = e.noticed := rfl
@[simp] theorem Ev.onState_dueSet (e : Ev) (f : State → State) : (e.onState f).dueSet = e.dueSet := rfl
@[simp] theorem Ev.onState_released (e : Ev) (f : State → State) : (e.onState f).released = e.released := rfl
@[simp] theorem Ev.onState_shedDone (e : Ev) (f : State → State) : (e.onState f).shedDone = e.shedDone := rfl
@[simp] theorem Ev.onState_restarted (e : Ev) (f : State → State) : (e.onState f).restarted = e.restarted := rfl

@[simp] theorem Ev.onScenes_noticed (e : Ev) (f : SceneExpander → SceneExpander) : (e.onScenes f).noticed = e.noticed := rfl
@[simp] theorem Ev.onScenes_dueSet (e : Ev) (f : SceneExpander → SceneExpander) : (e.onScenes f).dueSet = e.dueSet := rfl
@[simp] theorem Ev.onScenes_released (e : Ev) (f : SceneExpander → SceneExpander) : (e.onScenes f).released = e.released := rfl
@[simp] theorem Ev.onScenes_shedDone (e : Ev) (f : SceneExpander → SceneExpander) : (e.onScenes f).shedDone = e.shedDone := rfl
@[simp] theorem Ev.onScenes_restarted (e : Ev) (f : SceneExpander → SceneExpander) : (e.onScenes f).restarted = e.restarted := rfl

@[simp] theorem Ev.onState_s (e : Ev) (f : State → State) : (e.onState f).s = f e.s := rfl
@[simp] theorem Ev.notice_noticed (e : Ev) (k : Cause) (a b : Nat) : (e.notice k a b).noticed = true := rfl
@[simp] theorem Ev.onBudget_lbu (e : Ev) (f : Budget → Budget) : (e.onBudget f).s.lbu = f e.s.lbu := rfl
@[simp] theorem Ev.onScenes_sx (e : Ev) (f : SceneExpander → SceneExpander) : (e.onScenes f).s.sx = f e.s.sx := rfl

@[simp] theorem Ev.modChan_chan (e : Ev) (c : Fin 4) (f : Channel → Channel) :
    (e.modChan c f).chan c = f (e.chan c) := State.modChan_chan _ _ _

theorem Ev.modChan_chan_ne (e : Ev) (c d : Fin 4) (f : Channel → Channel) (h : d ≠ c) :
    (e.modChan c f).chan d = e.chan d := State.modChan_chan_ne _ _ _ _ h

@[simp] theorem Ev.modLoad_load (e : Ev) (n : Fin 96) (f : Load → Load) :
    (e.modLoad n f).load n = f (e.load n) := by simp [Ev.modLoad, Ev.onBudget, Ev.onState, Ev.load]

theorem Ev.modLoad_load_ne (e : Ev) (n m : Fin 96) (f : Load → Load) (h : m ≠ n) :
    (e.modLoad n f).load m = e.load m := upd_get_ne _ _ _ _ h

end Machine

end Sys2Proof
end

