-- ==== Sys2Proof/Laws/Quiet.lean ====
section
/-! SUPPORT. Laws/Quiet.lean: what the sending of frames can change, said once. Offers of places, level tries,
notice tries and reply tries move buffers, places, transmissions, the shifter, command slots, level-due flags and
the Notice Queue, and nothing else: `Quiet s t` of Safety.lean. -/

namespace Sys2Proof.Machine

theorem ChanQuiet.refl (x : Channel) : ChanQuiet x x := .inl rfl

@[simp] theorem Channel.taken_command (x : Channel) (k : DriveCode) : (x.taken k).command = none := by
  unfold Channel.taken; split <;> rfl

theorem ChanQuiet.trans {x y z : Channel} (h : ChanQuiet x y) (g : ChanQuiet y z) : ChanQuiet x z := by
  rcases h with rfl | ⟨k, hk, rfl⟩
  · exact g
  · rcases g with rfl | ⟨j, hj, -⟩
    · exact .inr ⟨k, hk, rfl⟩
    · simp at hj

/-- The taking of a slot changes its command and a start's phase only (R141). -/
theorem Channel.taken_eq (x : Channel) (k : DriveCode) :
    x.taken k = { x with command := none, phase := (x.taken k).phase } := by
  unfold Channel.taken; split <;> rfl

/-- All but the command and the phase of a channel stays. -/
theorem ChanQuiet.eq {x y : Channel} (h : ChanQuiet x y) :
    y = { x with command := y.command, phase := y.phase } := by
  rcases h with rfl | ⟨k, -, rfl⟩
  · rfl
  · conv => lhs; rw [Channel.taken_eq]
    simp

/-- A channel with an empty slot stays as it is. -/
theorem ChanQuiet.of_empty {x y : Channel} (h : ChanQuiet x y) (e : x.command = none) : y = x := by
  rcases h with rfl | ⟨k, hk, -⟩
  · rfl
  · rw [e] at hk; cases hk

/-- Outside a start in phase QUEUED the phase stays. -/
theorem ChanQuiet.phase {x y : Channel} (h : ChanQuiet x y) (e : x.state ≠ .starting ∨ x.phase ≠ .queued) :
    y.phase = x.phase := by
  rcases h with rfl | ⟨k, -, rfl⟩
  · rfl
  · unfold Channel.taken; split
    · next g => rcases e with e | e <;> simp_all
    · rfl

theorem Quiet.refl (s : State) : Quiet s s :=
  ⟨rfl, rfl, rfl, rfl, rfl, rfl, rfl, rfl, fun _ => .refl _, rfl, fun _ => rfl, rfl, rfl, rfl, rfl⟩

theorem Quiet.trans {s t u : State} (h : Quiet s t) (g : Quiet t u) : Quiet s u where
  now := g.now.trans h.now
  pending := g.pending.trans h.pending
  fe := g.fe.trans h.fe
  pm := g.pm.trans h.pm
  sx := g.sx.trans h.sx
  ie := g.ie.trans h.ie
  loop := g.loop.trans h.loop
  trip := g.trip.trans h.trip
  chan c := (h.chan c).trans (g.chan c)
  lbu := by rw [g.lbu, h.lbu]
  load n := by rw [g.load n, h.load n]
  mr := by rw [g.mr, h.mr]
  tpa := by have a := h.tpa; have b := g.tpa; unfold TrunkQuiet at *; rw [b, a]
  tpb := by have a := h.tpb; have b := g.tpb; unfold TrunkQuiet at *; rw [b, a]
  zp := by have a := h.zp; have b := g.zp; unfold ZoneQuiet at *; rw [b, a]

/-- A change of the pool alone is quiet. -/
theorem Quiet.of_pool {s t : State} (h : t = { s with pool := t.pool }) : Quiet s t := by
  rw [h]; exact ⟨rfl, rfl, rfl, rfl, rfl, rfl, rfl, rfl, fun _ => .refl _, rfl, fun _ => rfl, rfl, rfl, rfl, rfl⟩

theorem State.modBuf_quiet (s : State) (b : Fin 48) (f : Buffer → Buffer) : Quiet s (s.modBuf b f) := .of_pool rfl

theorem State.writeOwn_quiet (s : State) (b : Fin 48) (l : List Byte) : Quiet s (s.writeOwn b l) := .of_pool rfl

theorem State.giveBack_quiet (s : State) (b : Fin 48) : Quiet s (s.giveBack b) := .of_pool rfl

theorem State.addRef_quiet (s : State) (b : Fin 48) : Quiet s (s.addRef b) := .of_pool rfl

theorem State.dropRef_quiet (s : State) (b : Fin 48) : Quiet s (s.dropRef b) := by
  apply Quiet.of_pool; unfold State.dropRef; split <;> rfl

theorem State.dropRefs_quiet (s : State) (l : List (Fin 48)) : Quiet s (s.dropRefs l) := by
  induction l generalizing s with
  | nil => exact .refl s
  | cons b l ih => exact (s.dropRef_quiet b).trans (ih _)

theorem State.takeBuffer_quiet {s t : State} {least : Nat} {b : Fin 48} (h : s.takeBuffer least = some (b, t)) :
    Quiet s t := by
  obtain ⟨-, -, rfl⟩ := State.takeBuffer_some h; exact s.modBuf_quiet _ _

/-- A change of a trunk port's transmitter, beat timer and queue is quiet. -/
theorem State.modTrunk_quiet (s : State) (t : Trunk) (f : TrunkPort → TrunkPort)
    (h : ∀ p, TrunkQuiet p (f p)) : Quiet s (s.modTrunk t f) := by
  cases t
  · exact ⟨rfl, rfl, rfl, rfl, rfl, rfl, rfl, rfl, fun _ => .refl _, rfl, fun _ => rfl, rfl, h _, rfl, rfl⟩
  · exact ⟨rfl, rfl, rfl, rfl, rfl, rfl, rfl, rfl, fun _ => .refl _, rfl, fun _ => rfl, rfl, rfl, h _, rfl⟩

/-- A change of the zone shifter, attempt and queue is quiet. -/
theorem Quiet.of_zp {s t : State} (h : t = { s with zp := t.zp }) (z : ZoneQuiet s.zp t.zp) : Quiet s t := by
  rw [h]; exact ⟨rfl, rfl, rfl, rfl, rfl, rfl, rfl, rfl, fun _ => .refl _, rfl, fun _ => rfl, rfl, rfl, rfl, z⟩

theorem State.modZone_quiet (s : State) (f : ZonePort → ZonePort) (h : ∀ z, ZoneQuiet z (f z)) :
    Quiet s (s.modZone f) := .of_zp rfl (h _)

/-- A change of MR's notices and pending reply is quiet. -/
theorem Quiet.of_mr {s t : State} (h : t = { s with mr := t.mr })
    (m : t.mr = { s.mr with notices := t.mr.notices, headMark := t.mr.headMark, waitUp := t.mr.waitUp
                            pendingReply := t.mr.pendingReply }) : Quiet s t := by
  rw [h]; exact ⟨rfl, rfl, rfl, rfl, rfl, rfl, rfl, rfl, fun _ => .refl _, rfl, fun _ => rfl, m, rfl, rfl, rfl⟩

/-! ### Offers -/

theorem State.trunkBegin_quiet (s : State) (t : Trunk) : Quiet s (s.trunkBegin t) := by
  unfold State.trunkBegin
  split
  · exact s.modTrunk_quiet _ _ fun _ => rfl
  · exact .refl s

theorem State.offerTrunk_quiet {s u : State} {t : Trunk} {b : Fin 48} {cls : Fin 4} {hop : BitVec 4}
    (h : s.offerTrunk t b cls hop = some u) : Quiet s u := by
  unfold State.offerTrunk at h
  split at h
  · have q : Quiet s ((s.addRef b).modTrunk t fun p =>
        { p with queue := p.queue.accept (.buffer b cls hop none) }) :=
      (s.addRef_quiet b).trans (State.modTrunk_quiet _ _ _ fun _ => rfl)
    cases h
    split
    · exact q.trans (State.trunkBegin_quiet _ _)
    · exact q
  · cases h

theorem State.beginAttempt_quiet (s : State) : Quiet s s.beginAttempt := .of_zp rfl rfl

/-- The taking of a slot place by the Zone Port. -/
theorem State.modChan_taken_quiet (s : State) (c : Fin 4) (k : Command) (h : (s.chan c).command = some k) :
    Quiet s (s.modChan c fun x => x.taken k.code) :=
  ⟨rfl, rfl, rfl, rfl, rfl, rfl, rfl, rfl, fun d => by
    by_cases e : d = c
    · subst e; rw [State.modChan_chan]; exact .inr ⟨k, h, rfl⟩
    · rw [State.modChan_chan_ne _ _ _ _ e]; exact .refl _,
   rfl, fun _ => rfl, rfl, rfl, rfl, rfl⟩

theorem State.loadShifter_quiet (s : State) : Quiet s s.loadShifter := by
  unfold State.loadShifter
  split
  · exact .refl s
  · exact State.modZone_quiet _ _ fun _ => rfl
  · next c _ rest _ =>
    split
    · exact State.modZone_quiet _ _ fun _ => rfl
    · next cmd hc =>
      refine Quiet.trans (State.modZone_quiet s _ ?_) (State.modChan_taken_quiet _ c cmd hc)
      exact fun _ => rfl

theorem State.zoneKick_quiet (s : State) : Quiet s s.zoneKick := by
  unfold State.zoneKick
  split
  · dsimp only
    split
    · exact s.loadShifter_quiet.trans (State.beginAttempt_quiet _)
    · exact s.loadShifter_quiet
  · exact .refl s

theorem State.offerZone_quiet {s u : State} {b : Fin 48} {cls : Fin 4} {hop : BitVec 4} {r : Option Byte}
    (h : s.offerZone b cls hop r = some u) : Quiet s u := by
  unfold State.offerZone at h
  split at h
  · cases h
    refine ((s.addRef_quiet b).trans (State.modZone_quiet _ _ ?_)).trans (State.zoneKick_quiet _)
    exact fun _ => rfl
  · cases h

theorem State.offerBoth_quiet {s u : State} {b : Fin 48} {cls : Fin 4} {hop : BitVec 4}
    (h : s.offerBoth b cls hop = some u) : Quiet s u := by
  unfold State.offerBoth at h
  split at h
  · next s1 h1 =>
    cases h
    refine (State.offerTrunk_quiet h1).trans ?_
    rcases h2 : s1.offerTrunk .b b cls hop with _ | s2
    · exact .refl _
    · exact State.offerTrunk_quiet h2
  · exact State.offerTrunk_quiet h

theorem State.offerReply_quiet {s u : State} {p : Port} {b : Fin 48} (h : s.offerReply p b = some u) :
    Quiet s u := by
  cases p
  · exact State.offerTrunk_quiet h
  · exact State.offerTrunk_quiet h
  · exact State.offerZone_quiet h

theorem State.sendReply_quiet {s u : State} {p : Port} {b : Fin 48} {o : Origin} {code tag : Byte} {st : Status}
    {data : List Byte} (h : s.sendReply p b o code tag st data = some u) : Quiet s u :=
  (s.writeOwn_quiet b _).trans (State.offerReply_quiet h)

/-! ### Tries -/

theorem State.replyTry_quiet (s : State) : Quiet s s.replyTry := by
  unfold State.replyTry
  split
  · exact .refl s
  · split
    · exact .refl s
    · next h1 =>
      split
      · next h2 =>
        exact ((State.takeBuffer_quiet h1).trans (State.sendReply_quiet h2)).trans (.of_mr rfl rfl)
      · exact .refl s

theorem State.popNotice_quiet (s : State) : Quiet s s.popNotice := .of_mr rfl rfl

theorem State.waitForUp_quiet (s : State) : Quiet s s.waitForUp := .of_mr rfl rfl

theorem State.noticeSentTo_quiet (s : State) (i : Fin 2) : Quiet s (s.noticeSentTo i) := by
  unfold State.noticeSentTo; split <;> exact .of_mr rfl rfl

theorem State.sendNotice_quiet {s u : State} {t : DestType} {b1 b2 : Byte} {n : Notice}
    (h : s.sendNotice t b1 b2 n = .sent u) : Quiet s u := by
  unfold State.sendNotice at h
  split at h
  · cases h
  · next h1 =>
    dsimp only at h
    split at h
    · next h2 =>
      cases h
      exact ((State.takeBuffer_quiet h1).trans (State.writeOwn_quiet _ _ _)).trans (State.offerBoth_quiet h2)
    · cases h

theorem State.noticeTryFor_quiet (fuel : Nat) (s : State) : Quiet s (State.noticeTryFor fuel s) := by
  induction fuel generalizing s with
  | zero => exact .refl s
  | succ k ih =>
    unfold State.noticeTryFor
    split
    · exact .refl s
    · split
      · exact .refl s
      · split
        · exact s.popNotice_quiet.trans (ih _)
        · split
          · exact .refl s
          · exact s.waitForUp_quiet
          · next h => exact ((State.sendNotice_quiet h).trans (State.popNotice_quiet _)).trans (ih _)
        · dsimp only
          split
          · exact .refl s
          · exact s.waitForUp_quiet
          · next h => exact ((State.sendNotice_quiet h).trans (State.noticeSentTo_quiet _ _)).trans (ih _)

theorem State.noticeTry_quiet (s : State) : Quiet s s.noticeTry := State.noticeTryFor_quiet _ s

/-- A change of one load's level-due flag is quiet. -/
theorem State.clearDue_quiet (s : State) (n : Fin 96) :
    Quiet s { s with lbu := { s.lbu with loads := upd s.lbu.loads n fun l => { l with due := false } } } :=
  ⟨rfl, rfl, rfl, rfl, rfl, rfl, rfl, rfl, fun _ => .refl _, rfl, fun m => by
    rw [show ({ s with lbu := { s.lbu with loads := upd s.lbu.loads n fun l => { l with due := false } } } :
      State).lbu.loads = upd s.lbu.loads n fun l => { l with due := false } from rfl, upd_get]
    split <;> rfl,
   rfl, rfl, rfl, rfl⟩

theorem State.buildLevelSet_quiet {s u : State} {n : Fin 96} (h : s.buildLevelSet n = some u) : Quiet s u := by
  unfold State.buildLevelSet at h
  split at h
  · cases h
  · next h1 =>
    exact (((State.takeBuffer_quiet h1).trans (State.clearDue_quiet _ n)).trans
      (State.writeOwn_quiet _ _ _)).trans (State.offerZone_quiet h)

theorem State.levelTryOver_quiet (l : List (Fin 96)) (s : State) : Quiet s (s.levelTryOver l) := by
  induction l generalizing s with
  | nil => exact .refl s
  | cons n rest ih =>
    unfold State.levelTryOver
    split
    · split
      · next h => exact (State.buildLevelSet_quiet h).trans (ih _)
      · exact .refl s
    · exact ih s

theorem State.levelTry_quiet (s : State) : Quiet s s.levelTry := by
  unfold State.levelTry
  split
  · exact s.levelTryOver_quiet _
  · exact .refl s

/-! ### Slots -/

/-- A command written: nothing but the slot, and the sending of frames (R45). -/
theorem State.writeSlot_quiet {s u : State} {c : Fin 4} {k : DriveCode} (h : s.writeSlot c k = some u) :
    Quiet (s.modChan c fun x => { x with command := some ⟨k, x.cfg.controller⟩ }) u := by
  unfold State.writeSlot at h
  dsimp only at h
  split at h
  · cases h
  · split at h <;> cases h
    · exact .refl _
    · refine (State.modZone_quiet _ _ ?_).trans (State.zoneKick_quiet _)
      exact fun _ => rfl

/-- A command is refused only into an empty slot while the segment is FAULTED (R45). -/
theorem State.writeSlot_none {s : State} {c : Fin 4} {k : DriveCode} :
    s.writeSlot c k = none ↔ (s.chan c).command = none ∧ s.zp.segment = .faulted := by
  unfold State.writeSlot
  cases h : (s.chan c).command <;> cases g : s.zp.segment <;> simp

/-- A withdrawal: nothing but the slot and its place. -/
theorem State.withdraw_quiet (s : State) (c : Fin 4) :
    Quiet (s.modChan c fun x => { x with command := none }) (s.withdraw c) := .of_zp rfl rfl

end Sys2Proof.Machine
end

