-- ==== Sys2Proof/Laws/Budget.lean ====
section
/-! SUPPORT. Laws/Budget.lean: what the operations of LBU and SX can change, said once: LBU's own state and the
Notice Queue (`BudgetOnly`), and for SX its own state too (`ScenesOnly`). -/

namespace Sys2Proof.Machine

/-- From `e` to `f` nothing changed but LBU's state and the Notice Queue. -/
structure BudgetOnly (e f : Ev) : Prop where
  state : f.s = { e.s with lbu := f.s.lbu, mr := { e.s.mr with notices := f.s.mr.notices } }
  restarted : f.restarted = e.restarted

theorem BudgetOnly.refl (e : Ev) : BudgetOnly e e := ⟨rfl, rfl⟩

theorem BudgetOnly.trans {e f g : Ev} (h : BudgetOnly e f) (k : BudgetOnly f g) : BudgetOnly e g :=
  ⟨by rw [k.state, h.state], k.restarted.trans h.restarted⟩

theorem Ev.onBudget_only (e : Ev) (f : Budget → Budget) : BudgetOnly e (e.onBudget f) := ⟨rfl, rfl⟩

theorem Ev.modLoad_only (e : Ev) (n : Fin 96) (f : Load → Load) : BudgetOnly e (e.modLoad n f) := ⟨rfl, rfl⟩

theorem Ev.notice_only (e : Ev) (k : Cause) (a b : Nat) : BudgetOnly e (e.notice k a b) := ⟨rfl, rfl⟩

/-- The marks of an event but `restarted` do not matter. -/
theorem BudgetOnly.marks {e f : Ev} (h : BudgetOnly e f) (a b c : Bool) (l : List (Fin 4)) :
    BudgetOnly e { f with noticed := a, dueSet := b, released := c, shedDone := l } := ⟨h.state, h.restarted⟩

theorem Ev.setDue_only (e : Ev) (n : Fin 96) : BudgetOnly e (e.setDue n) := by
  unfold Ev.setDue; split
  · exact .refl e
  · exact (e.modLoad_only _ _).marks _ _ _ _

theorem Ev.clearMark_only (e : Ev) (n : Fin 96) : BudgetOnly e (e.clearMark n) := by
  unfold Ev.clearMark; split
  · exact .refl e
  · dsimp only; split
    · exact e.modLoad_only _ _
    · exact (e.modLoad_only _ _).marks _ _ _ _

theorem Ev.joinAdmission_only (e : Ev) (n : Fin 96) : BudgetOnly e (e.joinAdmission n) := e.onBudget_only _

theorem Ev.leaveAdmission_only (e : Ev) (n : Fin 96) : BudgetOnly e (e.leaveAdmission n) := e.onBudget_only _

theorem Ev.leaveShed_only (e : Ev) (n : Fin 96) : BudgetOnly e (e.leaveShed n) := e.onBudget_only _

theorem Ev.enterShed_only (e : Ev) (n : Fin 96) : BudgetOnly e (e.enterShed n) :=
  (e.modLoad_only _ _).trans (Ev.onBudget_only _ _)

theorem Ev.shed_only (w : Option (Fin 4)) (e : Ev) (n : Fin 96) : BudgetOnly e (Ev.shed w e n) := by
  have h : BudgetOnly e
      ((((e.modLoad n fun l => l.shedded w).leaveAdmission n).setDue n).notice .shed n.val (e.load n).requested) :=
    (((e.modLoad_only _ _).trans (Ev.leaveAdmission_only _ _)).trans (Ev.setDue_only _ _)).trans
      (Ev.notice_only _ _ _ _)
  unfold Ev.shed; dsimp only; split
  · exact h
  · exact h.trans (Ev.enterShed_only _ _)

theorem Ev.shedAll_only (e : Ev) (w : Option (Fin 4)) (l : List (Fin 96)) : BudgetOnly e (e.shedAll w l) := by
  induction l generalizing e with
  | nil => exact .refl e
  | cons n l ih => exact (Ev.shed_only w e n).trans (ih _)

theorem Ev.restore_only (e : Ev) (n : Fin 96) : BudgetOnly e (e.restore n) :=
  ((((e.leaveShed_only n).trans (Ev.joinAdmission_only _ n)).trans (Ev.modLoad_only _ n _)).trans
    (Ev.setDue_only _ n)).trans ((Ev.notice_only _ _ _ _).trans (Ev.clearMark_only _ n))

theorem Ev.restoreWalk_only (l : List (Fin 96)) (e : Ev) : BudgetOnly e (e.restoreWalk l) := by
  induction l generalizing e with
  | nil => exact .refl e
  | cons n l ih =>
    unfold Ev.restoreWalk; dsimp only
    split
    · exact ih e
    · split
      · exact (e.restore_only n).trans (ih _)
      · exact .refl e

theorem Ev.setOverBranch_only (e : Ev) (b : Fin 4) : BudgetOnly e (e.setOverBranch b) := by
  unfold Ev.setOverBranch; dsimp only; split
  · exact (e.onBudget_only _).trans (Ev.notice_only _ _ _ _)
  · exact .refl e

theorem Ev.setOverTotal_only (e : Ev) : BudgetOnly e e.setOverTotal := by
  unfold Ev.setOverTotal; dsimp only; split
  · exact (e.onBudget_only _).trans (Ev.notice_only _ _ _ _)
  · exact .refl e

theorem Ev.limitDecrease_only (e : Ev) : BudgetOnly e e.limitDecrease := by
  unfold Ev.limitDecrease; split
  · exact (((((e.shedAll_only _ _).trans (Ev.setOverBranch_only _ _)).trans (Ev.setOverBranch_only _ _)).trans
      (Ev.setOverBranch_only _ _)).trans (Ev.setOverBranch_only _ _)).trans (Ev.setOverTotal_only _)
  · exact .refl e

theorem Ev.changeLimits_only (e : Ev) (f : Budget → Budget) : BudgetOnly e (e.changeLimits f) := by
  have h : BudgetOnly e ((e.onBudget f).limitDecrease.onBudget Budget.clearOver) :=
    ((e.onBudget_only f).trans (Ev.limitDecrease_only _)).trans (Ev.onBudget_only _ _)
  unfold Ev.changeLimits; dsimp only; split
  · exact h.marks _ _ _ _
  · exact h

theorem Ev.setMode_only (e : Ev) (m : SourceMode) : BudgetOnly e (e.setMode m) := by
  unfold Ev.setMode; split
  · exact .refl e
  · exact e.changeLimits_only _

theorem Ev.selectManual_only (e : Ev) (m : SourceMode) : BudgetOnly e (e.selectManual m) :=
  (e.onBudget_only _).trans (Ev.setMode_only _ _)

theorem Ev.writeLimits_only (e : Ev) (m : Fin 4) (l : Limits) : BudgetOnly e (e.writeLimits m l) := by
  unfold Ev.writeLimits; dsimp only; split
  · exact e.changeLimits_only _
  · exact e.onBudget_only _

theorem Ev.goOff_only (e : Ev) (n : Fin 96) : BudgetOnly e (e.goOff n) :=
  (e.modLoad_only n _).trans (Ev.leaveAdmission_only _ n)

theorem Ev.lowerK_only (e : Ev) (n : Fin 96) (t : Nat) : BudgetOnly e (e.lowerK n t) := by
  unfold Ev.lowerK; dsimp only; split
  · exact ((e.modLoad_only n _).marks _ _ _ _).trans (Ev.goOff_only _ n)
  · exact (e.modLoad_only n _).marks _ _ _ _

theorem Ev.falling_only (e : Ev) (n : Fin 96) (t fade : Nat) : BudgetOnly e (e.falling n t fade) := by
  unfold Ev.falling; dsimp only; split
  · exact ((e.modLoad_only n _).trans (Ev.setDue_only _ n)).trans (Ev.lowerK_only _ n _)
  · exact ((e.modLoad_only n _).trans (Ev.setDue_only _ n)).trans (Ev.modLoad_only _ n _)

theorem Ev.grant_only (e : Ev) (n : Fin 96) (g t fade : Nat) : BudgetOnly e (e.grant n g t fade) := by
  unfold Ev.grant; dsimp only; split
  · exact ((e.modLoad_only n _).trans (Ev.setDue_only _ n)).trans
      ((Ev.joinAdmission_only _ n).trans (Ev.clearMark_only _ n))
  · exact (e.modLoad_only n _).trans (Ev.setDue_only _ n)

theorem Ev.rising_only (e : Ev) (n : Fin 96) (t asked fade : Nat) : BudgetOnly e (e.rising n t asked fade) := by
  unfold Ev.rising; dsimp only; split
  · exact e.notice_only _ _ _
  · split
    · exact e.grant_only _ _ _ _
    · split
      · exact e.notice_only _ _ _
      · exact (e.grant_only _ _ _ _).trans (Ev.notice_only _ _ _ _)

theorem Ev.dimmedRequest_only (e : Ev) (n : Fin 96) (asked fade : Nat) :
    BudgetOnly e (e.dimmedRequest n asked fade) := by
  unfold Ev.dimmedRequest; dsimp only; split
  · exact (e.modLoad_only n _).trans (Ev.setDue_only _ n)
  · split
    · exact e.falling_only _ _ _
    · exact e.rising_only _ _ _ _

theorem Ev.fadeEnds_only (e : Ev) (n : Fin 96) : BudgetOnly e (e.fadeEnds n) := by
  unfold Ev.fadeEnds; split
  · exact .refl e
  · exact e.modLoad_only _ _
  · exact e.lowerK_only _ _

theorem Ev.switchOn_only (e : Ev) (n : Fin 96) : BudgetOnly e (e.switchOn n) :=
  (((e.modLoad_only n _).trans (Ev.joinAdmission_only _ n)).trans (Ev.setDue_only _ n)).trans (Ev.clearMark_only _ n)

theorem Ev.switchOnRequest_only (e : Ev) (n : Fin 96) (asked : Nat) :
    BudgetOnly e (e.switchOnRequest n asked) := by
  unfold Ev.switchOnRequest; dsimp only; split
  · exact e.notice_only _ _ _
  · split
    · exact e.switchOn_only n
    · split
      · exact (e.shedAll_only _ _).trans (Ev.switchOn_only _ n)
      · exact e.notice_only _ _ _

theorem Ev.switchOff_only (e : Ev) (n : Fin 96) : BudgetOnly e (e.switchOff n) :=
  (((e.modLoad_only n _).trans (Ev.leaveAdmission_only _ n)).trans (Ev.setDue_only _ n)).marks _ _ _ _

theorem Ev.switchedRequest_only (e : Ev) (n : Fin 96) (asked : Nat) :
    BudgetOnly e (e.switchedRequest n asked) := by
  unfold Ev.switchedRequest; dsimp only
  split
  · split
    · exact e.switchOff_only n
    · exact e.setDue_only n
  · split
    · exact (e.modLoad_only n _).trans (Ev.setDue_only _ n)
    · exact e.switchOnRequest_only n asked

theorem Ev.inrushEnds_only (e : Ev) (n : Fin 96) : BudgetOnly e (e.inrushEnds n) := by
  unfold Ev.inrushEnds; dsimp only; split
  · exact ((e.modLoad_only n _).trans (Ev.modLoad_only _ n _)).marks _ _ _ _
  · exact e.modLoad_only n _

theorem Ev.shedRequest_only (e : Ev) (n : Fin 96) (asked : Nat) : BudgetOnly e (e.shedRequest n asked) := by
  rw [Ev.shedRequest]
  generalize (if (e.load n).cfg.type = .dimmed then shapeTarget (e.load n).cfg asked
    else if asked = 0 then 0 else 1000) = q
  split
  · exact ((e.modLoad_only n _).trans (Ev.modLoad_only _ n _)).trans (Ev.leaveShed_only _ n)
  · exact e.modLoad_only n _

theorem Ev.levelRequest_only (e : Ev) (n : Fin 96) (t fade : Nat) : BudgetOnly e (e.levelRequest n t fade) := by
  unfold Ev.levelRequest; dsimp only
  split
  · exact .refl e
  · split
    · exact e.notice_only _ _ _
    · split
      · exact e.shedRequest_only _ _
      · split
        · exact e.dimmedRequest_only _ _ _
        · exact e.switchedRequest_only _ _

theorem Ev.levelReqFrame_only (e : Ev) (p : List Byte) : BudgetOnly e (e.levelReqFrame p) := by
  unfold Ev.levelReqFrame; split
  · exact e.levelRequest_only _ _ _
  · exact .refl e

theorem Ev.admitMotor_only (e : Ev) (n : Fin 96) : BudgetOnly e (e.admitMotor n) :=
  (e.modLoad_only n _).trans (Ev.joinAdmission_only _ n)

theorem Ev.askMotor_only {e f : Ev} {c : Fin 4} {n : Fin 96} {b : Bool} (h : e.askMotor c n = .admitted b f) :
    BudgetOnly e f := by
  unfold Ev.askMotor at h
  dsimp only at h
  split at h
  · cases h
  · split at h
    · cases h
    · split at h
      · cases h; exact e.admitMotor_only n
      · split at h <;> cases h
        exact (e.shedAll_only _ _).trans (Ev.admitMotor_only _ n)

theorem Ev.startInrush_only (e : Ev) (n : Fin 96) : BudgetOnly e (e.startInrush n) := by
  unfold Ev.startInrush; split
  · exact e.modLoad_only _ _
  · exact .refl e

theorem Ev.releaseMotor_only (e : Ev) (c : Fin 4) : BudgetOnly e (e.releaseMotor c) :=
  (((e.modLoad_only _ _).trans (Ev.leaveAdmission_only _ _)).trans (Ev.onBudget_only _ _)).marks _ _ _ _

theorem Ev.levelSetReport_only (e : Ev) (f : List Byte) : BudgetOnly e (e.levelSetReport f) := by
  unfold Ev.levelSetReport; split
  · split
    · exact e.clearMark_only _
    · exact .refl e
  · exact .refl e

theorem Ev.budgetSegmentReset_only (e : Ev) : BudgetOnly e e.budgetSegmentReset :=
  (e.onBudget_only _).marks _ _ _ _

theorem Ev.writeLoad_only (e : Ev) (n : Fin 96) (r : LoadCfg) : BudgetOnly e (e.writeLoad n r).2 := by
  unfold Ev.writeLoad; dsimp only
  split
  · exact .refl e
  · split
    · exact .refl e
    · split
      · exact .refl e
      · exact (e.clearMark_only n).trans (Ev.modLoad_only _ n _)

theorem Ev.restoreRound_only (e : Ev) : BudgetOnly e e.restoreRound := by
  unfold Ev.restoreRound; dsimp only; split
  · exact ((e.onBudget_only _).marks _ _ _ _).trans (Ev.restoreWalk_only _ _)
  · exact e.onBudget_only _

/-! ### The Scene Expander -/

/-- From `e` to `f` nothing changed but SX's and LBU's state and the Notice Queue. -/
structure ScenesOnly (e f : Ev) : Prop where
  state : f.s = { e.s with lbu := f.s.lbu, sx := f.s.sx, mr := { e.s.mr with notices := f.s.mr.notices } }
  restarted : f.restarted = e.restarted

theorem BudgetOnly.scenes {e f : Ev} (h : BudgetOnly e f) : ScenesOnly e f :=
  ⟨by rw [h.state], h.restarted⟩

theorem ScenesOnly.refl (e : Ev) : ScenesOnly e e := ⟨rfl, rfl⟩

theorem ScenesOnly.trans {e f g : Ev} (h : ScenesOnly e f) (k : ScenesOnly f g) : ScenesOnly e g :=
  ⟨by rw [k.state, h.state], k.restarted.trans h.restarted⟩

theorem Ev.onScenes_only (e : Ev) (f : SceneExpander → SceneExpander) : ScenesOnly e (e.onScenes f) := ⟨rfl, rfl⟩

theorem Ev.chooseSlot_only (e : Ev) (s : Fin 128) : ScenesOnly e (e.chooseSlot s).2 := by
  unfold Ev.chooseSlot; split
  · dsimp only; exact e.onScenes_only _
  · split
    · dsimp only; exact e.onScenes_only _
    · dsimp only; exact (e.notice_only _ _ _).scenes.trans (Ev.onScenes_only _ _)

theorem Ev.applyAction_only (e : Ev) (l v f : Nat) : BudgetOnly e (e.applyAction l v f) := by
  unfold Ev.applyAction; split
  · exact e.levelRequest_only _ _ _
  · exact .refl e

theorem Ev.walkAction_only (e : Ev) (i : Fin 4) (s : Fin 128) (n : Nat) : ScenesOnly e (e.walkAction i s n) := by
  unfold Ev.walkAction; dsimp only; split
  · exact (e.applyAction_only _ _ _).scenes
  · split
    · exact e.onScenes_only _
    · exact ((e.notice_only _ _ _).trans (Ev.applyAction_only _ _ _ _)).scenes

theorem Ev.walk_only (i : Fin 4) (s : Fin 128) (l : List Nat) (e : Ev) :
    ScenesOnly e (l.foldl (fun e k => e.walkAction i s k) e) := by
  induction l generalizing e with
  | nil => exact .refl e
  | cons k l ih => exact (e.walkAction_only i s k).trans (ih _)

theorem Ev.recallValid_only (e : Ev) (s : Fin 128) : ScenesOnly e (e.recallValid s) :=
  (((e.chooseSlot_only s).trans (Ev.onScenes_only _ _)).trans (Ev.walk_only _ _ _ _)).trans (Ev.onScenes_only _ _)

theorem Ev.recall_only (e : Ev) (s : Fin 128) : ScenesOnly e (e.recall s).2 := by
  unfold Ev.recall; split
  · exact e.recallValid_only s
  · exact (e.notice_only _ _ _).scenes

theorem Ev.sceneFrame_only (e : Ev) (p : List Byte) : ScenesOnly e (e.sceneFrame p) := by
  unfold Ev.sceneFrame; split
  · exact e.recall_only _
  · exact .refl e

theorem Ev.dueEntry_only (e : Ev) (d : Delayed) : ScenesOnly e (e.dueEntry d) :=
  ((e.onScenes_only _).trans (Ev.applyAction_only _ _ _ _).scenes).trans (Ev.onScenes_only _ _)

theorem Ev.writeScene_only (e : Ev) (s : Fin 128) (r : SceneRec) : ScenesOnly e (e.writeScene s r).2 := by
  unfold Ev.writeScene; split
  · exact .refl e
  · dsimp only; split
    · exact e.onScenes_only _
    · exact ((e.onScenes_only _).trans (Ev.onScenes_only _ _)).trans (Ev.notice_only _ _ _ _).scenes

theorem Ev.writeAction_only (e : Ev) (n : Nat) (l : List ActionRec) : ScenesOnly e (e.writeAction n l).2 := by
  unfold Ev.writeAction; split
  · exact .refl e
  · split
    · exact .refl e
    · dsimp only; exact e.onScenes_only _

theorem Ev.recallRequest_only (e : Ev) (s : Fin 128) : ScenesOnly e (e.recallRequest s).2 := e.recall_only s

end Sys2Proof.Machine
end

