-- ==== Sys2Proof/Laws/Close.lean ====
section
/-! SUPPORT. Laws/Close.lean: the end of an event that leaves LBU nothing to settle but its flags: what it does is
send frames. -/

namespace Sys2Proof.Machine

/-- Nothing is left for the end of the event but LBU's flags, a level try and a notice try. -/
def Ev.plain (e : Ev) : Prop := (e.released = false ∨ e.s.lbu.shedList = []) ∧ e.shedDone = []

theorem Budget.clearOver_shedList (u : Budget) : u.clearOver.shedList = u.shedList := rfl

/-- The restore walk over an empty Shed List leaves the flags brought up to date. -/
theorem Ev.restoreRound_plain (e : Ev) (h : e.plain) :
    e.restoreRound = { e with s := e.s.current, released := false } := by
  obtain ⟨h, -⟩ := h
  unfold Ev.restoreRound
  by_cases r : e.released = true
  · have l : e.s.lbu.shedList = [] := by
      rcases h with h | h
      · rw [r] at h; cases h
      · exact h
    simp [Ev.onBudget, Ev.onState, r, Budget.clearOver_shedList, l, Ev.restoreWalk, State.current]
  · have r : e.released = false := by simpa using r
    simp [Ev.onBudget, Ev.onState, r, State.current]

theorem Ev.settleRounds_plain (n : Nat) (e : Ev) (h : e.plain) :
    e.settleRounds (n + 1) = { e with s := e.s.current, released := false } := by
  unfold Ev.settleRounds
  rw [e.restoreRound_plain h]
  simp [h.2]

/-- LBU's end of a plain event: a level try when a flag was set. -/
theorem Ev.settle_plain (e : Ev) (h : e.plain) :
    e.settle = { e with
      s := if e.dueSet then e.s.current.levelTry else e.s.current
      released := false, dueSet := false } := by
  unfold Ev.settle
  rw [e.settleRounds_plain 5 h]
  by_cases d : e.dueSet = true
  · simp [d]
  · have d : e.dueSet = false := by simpa using d
    simp [d]

/-- The end of a plain event sends frames and changes nothing else. -/
theorem Ev.close_quiet (e : Ev) (h : e.plain) : Quiet e.s.current e.close := by
  unfold Ev.close
  rw [e.settle_plain h]
  dsimp only
  have q : Quiet e.s.current (if e.dueSet then e.s.current.levelTry else e.s.current) := by
    split
    · exact e.s.current.levelTry_quiet
    · exact .refl _
  split
  · exact q.trans (State.noticeTry_quiet _)
  · exact q

/-- The end of a plain event that set no flag and queued no notice. -/
theorem Ev.close_still (e : Ev) (h : e.plain) (d : e.dueSet = false) (n : e.noticed = false) :
    e.close = e.s.current := by
  unfold Ev.close
  rw [e.settle_plain h]
  simp [d, n]

/-- The end of a plain event that queued notices and set no flag is a notice try. -/
theorem Ev.close_notice (e : Ev) (h : e.plain) (d : e.dueSet = false) (n : e.noticed = true) :
    e.close = e.s.current.noticeTry := by
  unfold Ev.close
  rw [e.settle_plain h]
  simp [d, n]

end Sys2Proof.Machine
end

