-- ==== Sys2Proof/Laws/Statements.lean ====
section
/-! SUPPORT. Laws/Statements.lean: what the states that statements speak of leave as it was, field by field, and what
the truth of a condition and its report say. -/

namespace Sys2Proof.Machine

/-! ### State.current -/

@[simp] theorem State.current_now (s : State) : (s.current).now = s.now := rfl
@[simp] theorem State.current_pending (s : State) : (s.current).pending = s.pending := rfl
@[simp] theorem State.current_tpa (s : State) : (s.current).tpa = s.tpa := rfl
@[simp] theorem State.current_tpb (s : State) : (s.current).tpb = s.tpb := rfl
@[simp] theorem State.current_zp (s : State) : (s.current).zp = s.zp := rfl
@[simp] theorem State.current_pool (s : State) : (s.current).pool = s.pool := rfl
@[simp] theorem State.current_fe (s : State) : (s.current).fe = s.fe := rfl
@[simp] theorem State.current_pm (s : State) : (s.current).pm = s.pm := rfl
@[simp] theorem State.current_sx (s : State) : (s.current).sx = s.sx := rfl
@[simp] theorem State.current_ds (s : State) : (s.current).ds = s.ds := rfl
@[simp] theorem State.current_ie (s : State) : (s.current).ie = s.ie := rfl
@[simp] theorem State.current_mr (s : State) : (s.current).mr = s.mr := rfl

/-! ### State.noting -/

@[simp] theorem State.noting_now (s : State) (x : Cause) (i v : Nat) : (s.noting x i v).now = s.now := rfl
@[simp] theorem State.noting_pending (s : State) (x : Cause) (i v : Nat) : (s.noting x i v).pending = s.pending := rfl
@[simp] theorem State.noting_tpa (s : State) (x : Cause) (i v : Nat) : (s.noting x i v).tpa = s.tpa := rfl
@[simp] theorem State.noting_tpb (s : State) (x : Cause) (i v : Nat) : (s.noting x i v).tpb = s.tpb := rfl
@[simp] theorem State.noting_zp (s : State) (x : Cause) (i v : Nat) : (s.noting x i v).zp = s.zp := rfl
@[simp] theorem State.noting_pool (s : State) (x : Cause) (i v : Nat) : (s.noting x i v).pool = s.pool := rfl
@[simp] theorem State.noting_fe (s : State) (x : Cause) (i v : Nat) : (s.noting x i v).fe = s.fe := rfl
@[simp] theorem State.noting_pm (s : State) (x : Cause) (i v : Nat) : (s.noting x i v).pm = s.pm := rfl
@[simp] theorem State.noting_lbu (s : State) (x : Cause) (i v : Nat) : (s.noting x i v).lbu = s.lbu := rfl
@[simp] theorem State.noting_sx (s : State) (x : Cause) (i v : Nat) : (s.noting x i v).sx = s.sx := rfl
@[simp] theorem State.noting_ds (s : State) (x : Cause) (i v : Nat) : (s.noting x i v).ds = s.ds := rfl
@[simp] theorem State.noting_ie (s : State) (x : Cause) (i v : Nat) : (s.noting x i v).ie = s.ie := rfl

/-! ### State.commanded -/

@[simp] theorem State.commanded_now (s : State) (c : Fin 4) (k : DriveCode) :
    (s.commanded c k).now = s.now := by simp only [State.commanded]; (repeat' split) <;> rfl
@[simp] theorem State.commanded_pending (s : State) (c : Fin 4) (k : DriveCode) :
    (s.commanded c k).pending = s.pending := by simp only [State.commanded]; (repeat' split) <;> rfl
@[simp] theorem State.commanded_tpa (s : State) (c : Fin 4) (k : DriveCode) :
    (s.commanded c k).tpa = s.tpa := by simp only [State.commanded]; (repeat' split) <;> rfl
@[simp] theorem State.commanded_tpb (s : State) (c : Fin 4) (k : DriveCode) :
    (s.commanded c k).tpb = s.tpb := by simp only [State.commanded]; (repeat' split) <;> rfl
@[simp] theorem State.commanded_pool (s : State) (c : Fin 4) (k : DriveCode) :
    (s.commanded c k).pool = s.pool := by simp only [State.commanded]; (repeat' split) <;> rfl
@[simp] theorem State.commanded_fe (s : State) (c : Fin 4) (k : DriveCode) :
    (s.commanded c k).fe = s.fe := by simp only [State.commanded]; (repeat' split) <;> rfl
@[simp] theorem State.commanded_pm (s : State) (c : Fin 4) (k : DriveCode) :
    (s.commanded c k).pm = s.pm := by simp only [State.commanded]; (repeat' split) <;> rfl
@[simp] theorem State.commanded_lbu (s : State) (c : Fin 4) (k : DriveCode) :
    (s.commanded c k).lbu = s.lbu := by simp only [State.commanded]; (repeat' split) <;> rfl
@[simp] theorem State.commanded_sx (s : State) (c : Fin 4) (k : DriveCode) :
    (s.commanded c k).sx = s.sx := by simp only [State.commanded]; (repeat' split) <;> rfl
@[simp] theorem State.commanded_ie (s : State) (c : Fin 4) (k : DriveCode) :
    (s.commanded c k).ie = s.ie := by simp only [State.commanded]; (repeat' split) <;> rfl
@[simp] theorem State.commanded_mr (s : State) (c : Fin 4) (k : DriveCode) :
    (s.commanded c k).mr = s.mr := by simp only [State.commanded]; (repeat' split) <;> rfl

/-! ### State.stoppedBy -/

@[simp] theorem State.stoppedBy_now (s : State) (c : Fin 4) (x : StopCause) :
    (s.stoppedBy c x).now = s.now := s.commanded_now c .stop
@[simp] theorem State.stoppedBy_pending (s : State) (c : Fin 4) (x : StopCause) :
    (s.stoppedBy c x).pending = s.pending := s.commanded_pending c .stop
@[simp] theorem State.stoppedBy_tpa (s : State) (c : Fin 4) (x : StopCause) :
    (s.stoppedBy c x).tpa = s.tpa := s.commanded_tpa c .stop
@[simp] theorem State.stoppedBy_tpb (s : State) (c : Fin 4) (x : StopCause) :
    (s.stoppedBy c x).tpb = s.tpb := s.commanded_tpb c .stop
@[simp] theorem State.stoppedBy_pool (s : State) (c : Fin 4) (x : StopCause) :
    (s.stoppedBy c x).pool = s.pool := s.commanded_pool c .stop
@[simp] theorem State.stoppedBy_fe (s : State) (c : Fin 4) (x : StopCause) :
    (s.stoppedBy c x).fe = s.fe := s.commanded_fe c .stop
@[simp] theorem State.stoppedBy_pm (s : State) (c : Fin 4) (x : StopCause) :
    (s.stoppedBy c x).pm = s.pm := s.commanded_pm c .stop
@[simp] theorem State.stoppedBy_lbu (s : State) (c : Fin 4) (x : StopCause) :
    (s.stoppedBy c x).lbu = s.lbu := s.commanded_lbu c .stop
@[simp] theorem State.stoppedBy_sx (s : State) (c : Fin 4) (x : StopCause) :
    (s.stoppedBy c x).sx = s.sx := s.commanded_sx c .stop
@[simp] theorem State.stoppedBy_ie (s : State) (c : Fin 4) (x : StopCause) :
    (s.stoppedBy c x).ie = s.ie := s.commanded_ie c .stop
@[simp] theorem State.stoppedBy_mr (s : State) (c : Fin 4) (x : StopCause) :
    (s.stoppedBy c x).mr = s.mr := s.commanded_mr c .stop

/-! ### State.motorOff -/

@[simp] theorem State.motorOff_now (s : State) (c : Fin 4) : (s.motorOff c).now = s.now := rfl
@[simp] theorem State.motorOff_pending (s : State) (c : Fin 4) : (s.motorOff c).pending = s.pending := rfl
@[simp] theorem State.motorOff_tpa (s : State) (c : Fin 4) : (s.motorOff c).tpa = s.tpa := rfl
@[simp] theorem State.motorOff_tpb (s : State) (c : Fin 4) : (s.motorOff c).tpb = s.tpb := rfl
@[simp] theorem State.motorOff_zp (s : State) (c : Fin 4) : (s.motorOff c).zp = s.zp := rfl
@[simp] theorem State.motorOff_pool (s : State) (c : Fin 4) : (s.motorOff c).pool = s.pool := rfl
@[simp] theorem State.motorOff_fe (s : State) (c : Fin 4) : (s.motorOff c).fe = s.fe := rfl
@[simp] theorem State.motorOff_pm (s : State) (c : Fin 4) : (s.motorOff c).pm = s.pm := rfl
@[simp] theorem State.motorOff_sx (s : State) (c : Fin 4) : (s.motorOff c).sx = s.sx := rfl
@[simp] theorem State.motorOff_ds (s : State) (c : Fin 4) : (s.motorOff c).ds = s.ds := rfl
@[simp] theorem State.motorOff_ie (s : State) (c : Fin 4) : (s.motorOff c).ie = s.ie := rfl
@[simp] theorem State.motorOff_mr (s : State) (c : Fin 4) : (s.motorOff c).mr = s.mr := rfl

/-! ### State.atIdle -/

@[simp] theorem State.atIdle_now (s : State) (c : Fin 4) : (s.atIdle c).now = s.now := rfl
@[simp] theorem State.atIdle_pending (s : State) (c : Fin 4) : (s.atIdle c).pending = s.pending := rfl
@[simp] theorem State.atIdle_tpa (s : State) (c : Fin 4) : (s.atIdle c).tpa = s.tpa := rfl
@[simp] theorem State.atIdle_tpb (s : State) (c : Fin 4) : (s.atIdle c).tpb = s.tpb := rfl
@[simp] theorem State.atIdle_zp (s : State) (c : Fin 4) : (s.atIdle c).zp = s.zp := rfl
@[simp] theorem State.atIdle_pool (s : State) (c : Fin 4) : (s.atIdle c).pool = s.pool := rfl
@[simp] theorem State.atIdle_fe (s : State) (c : Fin 4) : (s.atIdle c).fe = s.fe := rfl
@[simp] theorem State.atIdle_pm (s : State) (c : Fin 4) : (s.atIdle c).pm = s.pm := rfl
@[simp] theorem State.atIdle_lbu (s : State) (c : Fin 4) : (s.atIdle c).lbu = s.lbu := rfl
@[simp] theorem State.atIdle_sx (s : State) (c : Fin 4) : (s.atIdle c).sx = s.sx := rfl
@[simp] theorem State.atIdle_ie (s : State) (c : Fin 4) : (s.atIdle c).ie = s.ie := rfl
@[simp] theorem State.atIdle_mr (s : State) (c : Fin 4) : (s.atIdle c).mr = s.mr := rfl

/-! ### State.atFault -/

@[simp] theorem State.atFault_now (s : State) (c : Fin 4) (x : FaultCause) : (s.atFault c x).now = s.now := rfl
@[simp] theorem State.atFault_pending (s : State) (c : Fin 4) (x : FaultCause) :
    (s.atFault c x).pending = s.pending := rfl
@[simp] theorem State.atFault_tpa (s : State) (c : Fin 4) (x : FaultCause) : (s.atFault c x).tpa = s.tpa := rfl
@[simp] theorem State.atFault_tpb (s : State) (c : Fin 4) (x : FaultCause) : (s.atFault c x).tpb = s.tpb := rfl
@[simp] theorem State.atFault_zp (s : State) (c : Fin 4) (x : FaultCause) : (s.atFault c x).zp = s.zp := rfl
@[simp] theorem State.atFault_pool (s : State) (c : Fin 4) (x : FaultCause) : (s.atFault c x).pool = s.pool := rfl
@[simp] theorem State.atFault_fe (s : State) (c : Fin 4) (x : FaultCause) : (s.atFault c x).fe = s.fe := rfl
@[simp] theorem State.atFault_pm (s : State) (c : Fin 4) (x : FaultCause) : (s.atFault c x).pm = s.pm := rfl
@[simp] theorem State.atFault_lbu (s : State) (c : Fin 4) (x : FaultCause) : (s.atFault c x).lbu = s.lbu := rfl
@[simp] theorem State.atFault_sx (s : State) (c : Fin 4) (x : FaultCause) : (s.atFault c x).sx = s.sx := rfl
@[simp] theorem State.atFault_ie (s : State) (c : Fin 4) (x : FaultCause) : (s.atFault c x).ie = s.ie := rfl
@[simp] theorem State.atFault_mr (s : State) (c : Fin 4) (x : FaultCause) : (s.atFault c x).mr = s.mr := rfl

/-! ### State.markCleared -/

@[simp] theorem State.markCleared_now (s : State) (n : Fin 96) : (s.markCleared n).now = s.now := rfl
@[simp] theorem State.markCleared_pending (s : State) (n : Fin 96) : (s.markCleared n).pending = s.pending := rfl
@[simp] theorem State.markCleared_tpa (s : State) (n : Fin 96) : (s.markCleared n).tpa = s.tpa := rfl
@[simp] theorem State.markCleared_tpb (s : State) (n : Fin 96) : (s.markCleared n).tpb = s.tpb := rfl
@[simp] theorem State.markCleared_zp (s : State) (n : Fin 96) : (s.markCleared n).zp = s.zp := rfl
@[simp] theorem State.markCleared_pool (s : State) (n : Fin 96) : (s.markCleared n).pool = s.pool := rfl
@[simp] theorem State.markCleared_fe (s : State) (n : Fin 96) : (s.markCleared n).fe = s.fe := rfl
@[simp] theorem State.markCleared_pm (s : State) (n : Fin 96) : (s.markCleared n).pm = s.pm := rfl
@[simp] theorem State.markCleared_sx (s : State) (n : Fin 96) : (s.markCleared n).sx = s.sx := rfl
@[simp] theorem State.markCleared_ds (s : State) (n : Fin 96) : (s.markCleared n).ds = s.ds := rfl
@[simp] theorem State.markCleared_ie (s : State) (n : Fin 96) : (s.markCleared n).ie = s.ie := rfl
@[simp] theorem State.markCleared_mr (s : State) (n : Fin 96) : (s.markCleared n).mr = s.mr := rfl

/-! ### State.startWritten -/

@[simp] theorem State.startWritten_now (s : State) (c : Fin 4) :
    (s.startWritten c).now = s.now := State.commanded_now ..
@[simp] theorem State.startWritten_pending (s : State) (c : Fin 4) :
    (s.startWritten c).pending = s.pending := State.commanded_pending ..
@[simp] theorem State.startWritten_tpa (s : State) (c : Fin 4) :
    (s.startWritten c).tpa = s.tpa := State.commanded_tpa ..
@[simp] theorem State.startWritten_tpb (s : State) (c : Fin 4) :
    (s.startWritten c).tpb = s.tpb := State.commanded_tpb ..
@[simp] theorem State.startWritten_pool (s : State) (c : Fin 4) :
    (s.startWritten c).pool = s.pool := State.commanded_pool ..
@[simp] theorem State.startWritten_fe (s : State) (c : Fin 4) : (s.startWritten c).fe = s.fe := State.commanded_fe ..
@[simp] theorem State.startWritten_pm (s : State) (c : Fin 4) : (s.startWritten c).pm = s.pm := State.commanded_pm ..
@[simp] theorem State.startWritten_lbu (s : State) (c : Fin 4) :
    (s.startWritten c).lbu = s.lbu := State.commanded_lbu ..
@[simp] theorem State.startWritten_sx (s : State) (c : Fin 4) : (s.startWritten c).sx = s.sx := State.commanded_sx ..
@[simp] theorem State.startWritten_ie (s : State) (c : Fin 4) : (s.startWritten c).ie = s.ie := State.commanded_ie ..
@[simp] theorem State.startWritten_mr (s : State) (c : Fin 4) : (s.startWritten c).mr = s.mr := State.commanded_mr ..

/-! ### State.slotEmptied -/

@[simp] theorem State.slotEmptied_now (s : State) (c : Fin 4) : (s.slotEmptied c).now = s.now := rfl
@[simp] theorem State.slotEmptied_pending (s : State) (c : Fin 4) : (s.slotEmptied c).pending = s.pending := rfl
@[simp] theorem State.slotEmptied_tpa (s : State) (c : Fin 4) : (s.slotEmptied c).tpa = s.tpa := rfl
@[simp] theorem State.slotEmptied_tpb (s : State) (c : Fin 4) : (s.slotEmptied c).tpb = s.tpb := rfl
@[simp] theorem State.slotEmptied_pool (s : State) (c : Fin 4) : (s.slotEmptied c).pool = s.pool := rfl
@[simp] theorem State.slotEmptied_fe (s : State) (c : Fin 4) : (s.slotEmptied c).fe = s.fe := rfl
@[simp] theorem State.slotEmptied_pm (s : State) (c : Fin 4) : (s.slotEmptied c).pm = s.pm := rfl
@[simp] theorem State.slotEmptied_lbu (s : State) (c : Fin 4) : (s.slotEmptied c).lbu = s.lbu := rfl
@[simp] theorem State.slotEmptied_sx (s : State) (c : Fin 4) : (s.slotEmptied c).sx = s.sx := rfl
@[simp] theorem State.slotEmptied_ie (s : State) (c : Fin 4) : (s.slotEmptied c).ie = s.ie := rfl
@[simp] theorem State.slotEmptied_mr (s : State) (c : Fin 4) : (s.slotEmptied c).mr = s.mr := rfl

/-! ### State.segmentEmptied -/

@[simp] theorem State.segmentEmptied_now (s : State) : (s.segmentEmptied).now = s.now := rfl
@[simp] theorem State.segmentEmptied_pending (s : State) : (s.segmentEmptied).pending = s.pending := rfl
@[simp] theorem State.segmentEmptied_tpa (s : State) : (s.segmentEmptied).tpa = s.tpa := rfl
@[simp] theorem State.segmentEmptied_tpb (s : State) : (s.segmentEmptied).tpb = s.tpb := rfl
@[simp] theorem State.segmentEmptied_fe (s : State) : (s.segmentEmptied).fe = s.fe := rfl
@[simp] theorem State.segmentEmptied_pm (s : State) : (s.segmentEmptied).pm = s.pm := rfl
@[simp] theorem State.segmentEmptied_lbu (s : State) : (s.segmentEmptied).lbu = s.lbu := rfl
@[simp] theorem State.segmentEmptied_sx (s : State) : (s.segmentEmptied).sx = s.sx := rfl
@[simp] theorem State.segmentEmptied_ie (s : State) : (s.segmentEmptied).ie = s.ie := rfl
@[simp] theorem State.segmentEmptied_mr (s : State) : (s.segmentEmptied).mr = s.mr := rfl

/-! ### State.withdrawn -/

@[simp] theorem State.withdrawn_now (s : State) (c : Fin 4) (x : StopCause) :
    (s.withdrawn c x).now = s.now := by simp only [State.withdrawn]; split <;> rfl
@[simp] theorem State.withdrawn_pending (s : State) (c : Fin 4) (x : StopCause) :
    (s.withdrawn c x).pending = s.pending := by simp only [State.withdrawn]; split <;> rfl
@[simp] theorem State.withdrawn_tpa (s : State) (c : Fin 4) (x : StopCause) :
    (s.withdrawn c x).tpa = s.tpa := by simp only [State.withdrawn]; split <;> rfl
@[simp] theorem State.withdrawn_tpb (s : State) (c : Fin 4) (x : StopCause) :
    (s.withdrawn c x).tpb = s.tpb := by simp only [State.withdrawn]; split <;> rfl
@[simp] theorem State.withdrawn_pool (s : State) (c : Fin 4) (x : StopCause) :
    (s.withdrawn c x).pool = s.pool := by simp only [State.withdrawn]; split <;> rfl
@[simp] theorem State.withdrawn_fe (s : State) (c : Fin 4) (x : StopCause) :
    (s.withdrawn c x).fe = s.fe := by simp only [State.withdrawn]; split <;> rfl
@[simp] theorem State.withdrawn_pm (s : State) (c : Fin 4) (x : StopCause) :
    (s.withdrawn c x).pm = s.pm := by simp only [State.withdrawn]; split <;> rfl
@[simp] theorem State.withdrawn_sx (s : State) (c : Fin 4) (x : StopCause) :
    (s.withdrawn c x).sx = s.sx := by simp only [State.withdrawn]; split <;> rfl
@[simp] theorem State.withdrawn_ie (s : State) (c : Fin 4) (x : StopCause) :
    (s.withdrawn c x).ie = s.ie := by simp only [State.withdrawn]; split <;> rfl
@[simp] theorem State.withdrawn_mr (s : State) (c : Fin 4) (x : StopCause) :
    (s.withdrawn c x).mr = s.mr := by simp only [State.withdrawn]; split <;> rfl

/-! ### State.unmarked -/

@[simp] theorem State.unmarked_now (s : State) (n : Fin 96) :
    (s.unmarked n).now = s.now := by simp only [State.unmarked]; split <;> (try split) <;> simp
@[simp] theorem State.unmarked_pending (s : State) (n : Fin 96) :
    (s.unmarked n).pending = s.pending := by simp only [State.unmarked]; split <;> (try split) <;> simp
@[simp] theorem State.unmarked_tpa (s : State) (n : Fin 96) :
    (s.unmarked n).tpa = s.tpa := by simp only [State.unmarked]; split <;> (try split) <;> simp
@[simp] theorem State.unmarked_tpb (s : State) (n : Fin 96) :
    (s.unmarked n).tpb = s.tpb := by simp only [State.unmarked]; split <;> (try split) <;> simp
@[simp] theorem State.unmarked_pool (s : State) (n : Fin 96) :
    (s.unmarked n).pool = s.pool := by simp only [State.unmarked]; split <;> (try split) <;> simp
@[simp] theorem State.unmarked_fe (s : State) (n : Fin 96) :
    (s.unmarked n).fe = s.fe := by simp only [State.unmarked]; split <;> (try split) <;> simp
@[simp] theorem State.unmarked_pm (s : State) (n : Fin 96) :
    (s.unmarked n).pm = s.pm := by simp only [State.unmarked]; split <;> (try split) <;> simp
@[simp] theorem State.unmarked_sx (s : State) (n : Fin 96) :
    (s.unmarked n).sx = s.sx := by simp only [State.unmarked]; split <;> (try split) <;> simp
@[simp] theorem State.unmarked_ie (s : State) (n : Fin 96) :
    (s.unmarked n).ie = s.ie := by simp only [State.unmarked]; split <;> (try split) <;> simp
@[simp] theorem State.unmarked_mr (s : State) (n : Fin 96) :
    (s.unmarked n).mr = s.mr := by simp only [State.unmarked]; split <;> (try split) <;> simp

/-! ### State.motorAdmitted -/

@[simp] theorem State.motorAdmitted_now (s : State) (n : Fin 96) : (s.motorAdmitted n).now = s.now := rfl
@[simp] theorem State.motorAdmitted_pending (s : State) (n : Fin 96) : (s.motorAdmitted n).pending = s.pending := rfl
@[simp] theorem State.motorAdmitted_tpa (s : State) (n : Fin 96) : (s.motorAdmitted n).tpa = s.tpa := rfl
@[simp] theorem State.motorAdmitted_tpb (s : State) (n : Fin 96) : (s.motorAdmitted n).tpb = s.tpb := rfl
@[simp] theorem State.motorAdmitted_zp (s : State) (n : Fin 96) : (s.motorAdmitted n).zp = s.zp := rfl
@[simp] theorem State.motorAdmitted_pool (s : State) (n : Fin 96) : (s.motorAdmitted n).pool = s.pool := rfl
@[simp] theorem State.motorAdmitted_fe (s : State) (n : Fin 96) : (s.motorAdmitted n).fe = s.fe := rfl
@[simp] theorem State.motorAdmitted_pm (s : State) (n : Fin 96) : (s.motorAdmitted n).pm = s.pm := rfl
@[simp] theorem State.motorAdmitted_sx (s : State) (n : Fin 96) : (s.motorAdmitted n).sx = s.sx := rfl
@[simp] theorem State.motorAdmitted_ds (s : State) (n : Fin 96) : (s.motorAdmitted n).ds = s.ds := rfl
@[simp] theorem State.motorAdmitted_ie (s : State) (n : Fin 96) : (s.motorAdmitted n).ie = s.ie := rfl
@[simp] theorem State.motorAdmitted_mr (s : State) (n : Fin 96) : (s.motorAdmitted n).mr = s.mr := rfl

/-! ### State.levelsDue -/

@[simp] theorem State.levelsDue_now (s : State) : (s.levelsDue).now = s.now := rfl
@[simp] theorem State.levelsDue_pending (s : State) : (s.levelsDue).pending = s.pending := rfl
@[simp] theorem State.levelsDue_tpa (s : State) : (s.levelsDue).tpa = s.tpa := rfl
@[simp] theorem State.levelsDue_tpb (s : State) : (s.levelsDue).tpb = s.tpb := rfl
@[simp] theorem State.levelsDue_zp (s : State) : (s.levelsDue).zp = s.zp := rfl
@[simp] theorem State.levelsDue_pool (s : State) : (s.levelsDue).pool = s.pool := rfl
@[simp] theorem State.levelsDue_fe (s : State) : (s.levelsDue).fe = s.fe := rfl
@[simp] theorem State.levelsDue_pm (s : State) : (s.levelsDue).pm = s.pm := rfl
@[simp] theorem State.levelsDue_sx (s : State) : (s.levelsDue).sx = s.sx := rfl
@[simp] theorem State.levelsDue_ds (s : State) : (s.levelsDue).ds = s.ds := rfl
@[simp] theorem State.levelsDue_ie (s : State) : (s.levelsDue).ie = s.ie := rfl
@[simp] theorem State.levelsDue_mr (s : State) : (s.levelsDue).mr = s.mr := rfl

/-! ### State.interlocked, State.interlockedAll, State.updatedBy, State.inMode -/

@[simp] theorem State.interlocked_now (s : State) (ks : List (Fin 48)) (c : Fin 4) : (s.interlocked ks c).now = s.now := by
  simp only [State.interlocked]; (repeat' split) <;> simp
@[simp] theorem State.interlockedAll_now (s : State) (ks : List (Fin 48)) : (s.interlockedAll ks).now = s.now := by
  unfold State.interlockedAll
  generalize List.finRange 4 = l
  induction l generalizing s with
  | nil => rfl
  | cons c l ih => simp only [List.foldl_cons, ih]; split <;> simp
@[simp] theorem State.interlocked_pending (s : State) (ks : List (Fin 48)) (c : Fin 4) : (s.interlocked ks c).pending = s.pending := by
  simp only [State.interlocked]; (repeat' split) <;> simp
@[simp] theorem State.interlockedAll_pending (s : State) (ks : List (Fin 48)) : (s.interlockedAll ks).pending = s.pending := by
  unfold State.interlockedAll
  generalize List.finRange 4 = l
  induction l generalizing s with
  | nil => rfl
  | cons c l ih => simp only [List.foldl_cons, ih]; split <;> simp
@[simp] theorem State.interlocked_tpa (s : State) (ks : List (Fin 48)) (c : Fin 4) : (s.interlocked ks c).tpa = s.tpa := by
  simp only [State.interlocked]; (repeat' split) <;> simp
@[simp] theorem State.interlockedAll_tpa (s : State) (ks : List (Fin 48)) : (s.interlockedAll ks).tpa = s.tpa := by
  unfold State.interlockedAll
  generalize List.finRange 4 = l
  induction l generalizing s with
  | nil => rfl
  | cons c l ih => simp only [List.foldl_cons, ih]; split <;> simp
@[simp] theorem State.interlocked_tpb (s : State) (ks : List (Fin 48)) (c : Fin 4) : (s.interlocked ks c).tpb = s.tpb := by
  simp only [State.interlocked]; (repeat' split) <;> simp
@[simp] theorem State.interlockedAll_tpb (s : State) (ks : List (Fin 48)) : (s.interlockedAll ks).tpb = s.tpb := by
  unfold State.interlockedAll
  generalize List.finRange 4 = l
  induction l generalizing s with
  | nil => rfl
  | cons c l ih => simp only [List.foldl_cons, ih]; split <;> simp
@[simp] theorem State.interlocked_pool (s : State) (ks : List (Fin 48)) (c : Fin 4) : (s.interlocked ks c).pool = s.pool := by
  simp only [State.interlocked]; (repeat' split) <;> simp
@[simp] theorem State.interlockedAll_pool (s : State) (ks : List (Fin 48)) : (s.interlockedAll ks).pool = s.pool := by
  unfold State.interlockedAll
  generalize List.finRange 4 = l
  induction l generalizing s with
  | nil => rfl
  | cons c l ih => simp only [List.foldl_cons, ih]; split <;> simp
@[simp] theorem State.interlocked_fe (s : State) (ks : List (Fin 48)) (c : Fin 4) : (s.interlocked ks c).fe = s.fe := by
  simp only [State.interlocked]; (repeat' split) <;> simp
@[simp] theorem State.interlockedAll_fe (s : State) (ks : List (Fin 48)) : (s.interlockedAll ks).fe = s.fe := by
  unfold State.interlockedAll
  generalize List.finRange 4 = l
  induction l generalizing s with
  | nil => rfl
  | cons c l ih => simp only [List.foldl_cons, ih]; split <;> simp
@[simp] theorem State.interlocked_pm (s : State) (ks : List (Fin 48)) (c : Fin 4) : (s.interlocked ks c).pm = s.pm := by
  simp only [State.interlocked]; (repeat' split) <;> simp
@[simp] theorem State.interlockedAll_pm (s : State) (ks : List (Fin 48)) : (s.interlockedAll ks).pm = s.pm := by
  unfold State.interlockedAll
  generalize List.finRange 4 = l
  induction l generalizing s with
  | nil => rfl
  | cons c l ih => simp only [List.foldl_cons, ih]; split <;> simp
@[simp] theorem State.interlocked_sx (s : State) (ks : List (Fin 48)) (c : Fin 4) : (s.interlocked ks c).sx = s.sx := by
  simp only [State.interlocked]; (repeat' split) <;> simp
@[simp] theorem State.interlockedAll_sx (s : State) (ks : List (Fin 48)) : (s.interlockedAll ks).sx = s.sx := by
  unfold State.interlockedAll
  generalize List.finRange 4 = l
  induction l generalizing s with
  | nil => rfl
  | cons c l ih => simp only [List.foldl_cons, ih]; split <;> simp
@[simp] theorem State.interlocked_ie (s : State) (ks : List (Fin 48)) (c : Fin 4) : (s.interlocked ks c).ie = s.ie := by
  simp only [State.interlocked]; (repeat' split) <;> simp
@[simp] theorem State.interlockedAll_ie (s : State) (ks : List (Fin 48)) : (s.interlockedAll ks).ie = s.ie := by
  unfold State.interlockedAll
  generalize List.finRange 4 = l
  induction l generalizing s with
  | nil => rfl
  | cons c l ih => simp only [List.foldl_cons, ih]; split <;> simp
@[simp] theorem State.updatedBy_now (s : State) (f : List Byte) : (s.updatedBy f).now = s.now := by
  simp only [State.updatedBy]
  suffices ∀ (l : List (Fin 64)) (u : State),
      (l.foldl (fun u p => u.interlockedAll (u.failing p)) u).now = u.now from this _ _
  intro l
  induction l with
  | nil => intro u; rfl
  | cons p l ih => intro u; simp [ih]
@[simp] theorem State.updatedBy_pending (s : State) (f : List Byte) : (s.updatedBy f).pending = s.pending := by
  simp only [State.updatedBy]
  suffices ∀ (l : List (Fin 64)) (u : State),
      (l.foldl (fun u p => u.interlockedAll (u.failing p)) u).pending = u.pending from this _ _
  intro l
  induction l with
  | nil => intro u; rfl
  | cons p l ih => intro u; simp [ih]
@[simp] theorem State.updatedBy_tpa (s : State) (f : List Byte) : (s.updatedBy f).tpa = s.tpa := by
  simp only [State.updatedBy]
  suffices ∀ (l : List (Fin 64)) (u : State),
      (l.foldl (fun u p => u.interlockedAll (u.failing p)) u).tpa = u.tpa from this _ _
  intro l
  induction l with
  | nil => intro u; rfl
  | cons p l ih => intro u; simp [ih]
@[simp] theorem State.updatedBy_tpb (s : State) (f : List Byte) : (s.updatedBy f).tpb = s.tpb := by
  simp only [State.updatedBy]
  suffices ∀ (l : List (Fin 64)) (u : State),
      (l.foldl (fun u p => u.interlockedAll (u.failing p)) u).tpb = u.tpb from this _ _
  intro l
  induction l with
  | nil => intro u; rfl
  | cons p l ih => intro u; simp [ih]
@[simp] theorem State.updatedBy_pool (s : State) (f : List Byte) : (s.updatedBy f).pool = s.pool := by
  simp only [State.updatedBy]
  suffices ∀ (l : List (Fin 64)) (u : State),
      (l.foldl (fun u p => u.interlockedAll (u.failing p)) u).pool = u.pool from this _ _
  intro l
  induction l with
  | nil => intro u; rfl
  | cons p l ih => intro u; simp [ih]
@[simp] theorem State.updatedBy_fe (s : State) (f : List Byte) : (s.updatedBy f).fe = s.fe := by
  simp only [State.updatedBy]
  suffices ∀ (l : List (Fin 64)) (u : State),
      (l.foldl (fun u p => u.interlockedAll (u.failing p)) u).fe = u.fe from this _ _
  intro l
  induction l with
  | nil => intro u; rfl
  | cons p l ih => intro u; simp [ih]
@[simp] theorem State.updatedBy_sx (s : State) (f : List Byte) : (s.updatedBy f).sx = s.sx := by
  simp only [State.updatedBy]
  suffices ∀ (l : List (Fin 64)) (u : State),
      (l.foldl (fun u p => u.interlockedAll (u.failing p)) u).sx = u.sx from this _ _
  intro l
  induction l with
  | nil => intro u; rfl
  | cons p l ih => intro u; simp [ih]
@[simp] theorem State.updatedBy_ie (s : State) (f : List Byte) : (s.updatedBy f).ie = s.ie := by
  simp only [State.updatedBy]
  suffices ∀ (l : List (Fin 64)) (u : State),
      (l.foldl (fun u p => u.interlockedAll (u.failing p)) u).ie = u.ie from this _ _
  intro l
  induction l with
  | nil => intro u; rfl
  | cons p l ih => intro u; simp [ih]
@[simp] theorem State.updatedBy_pm (s : State) (f : List Byte) : (s.updatedBy f).pm = (s.fedBy f).pm := by
  simp only [State.updatedBy]
  suffices ∀ (l : List (Fin 64)) (u : State),
      (l.foldl (fun u p => u.interlockedAll (u.failing p)) u).pm = u.pm from this _ _
  intro l
  induction l with
  | nil => intro u; rfl
  | cons p l ih => intro u; simp [ih]
@[simp] theorem State.inMode_now (s : State) (m : Fin 4) : (s.inMode m).now = s.now := rfl
@[simp] theorem State.inMode_pending (s : State) (m : Fin 4) : (s.inMode m).pending = s.pending := rfl
@[simp] theorem State.inMode_tpa (s : State) (m : Fin 4) : (s.inMode m).tpa = s.tpa := rfl
@[simp] theorem State.inMode_tpb (s : State) (m : Fin 4) : (s.inMode m).tpb = s.tpb := rfl
@[simp] theorem State.inMode_pool (s : State) (m : Fin 4) : (s.inMode m).pool = s.pool := rfl
@[simp] theorem State.inMode_fe (s : State) (m : Fin 4) : (s.inMode m).fe = s.fe := rfl
@[simp] theorem State.inMode_pm (s : State) (m : Fin 4) : (s.inMode m).pm = s.pm := rfl
@[simp] theorem State.inMode_sx (s : State) (m : Fin 4) : (s.inMode m).sx = s.sx := rfl
@[simp] theorem State.inMode_ie (s : State) (m : Fin 4) : (s.inMode m).ie = s.ie := rfl
@[simp] theorem State.inMode_ds (s : State) (m : Fin 4) : (s.inMode m).ds = s.ds := rfl
@[simp] theorem State.inMode_mr (s : State) (m : Fin 4) : (s.inMode m).mr = s.mr := rfl

/-! ### State.withShed -/

@[simp] theorem State.withShed_now (s : State) (wait : Option (Fin 4)) (n : Fin 96) :
    (s.withShed wait n).now = s.now := rfl
@[simp] theorem State.withShed_pending (s : State) (wait : Option (Fin 4)) (n : Fin 96) :
    (s.withShed wait n).pending = s.pending := rfl
@[simp] theorem State.withShed_tpa (s : State) (wait : Option (Fin 4)) (n : Fin 96) :
    (s.withShed wait n).tpa = s.tpa := rfl
@[simp] theorem State.withShed_tpb (s : State) (wait : Option (Fin 4)) (n : Fin 96) :
    (s.withShed wait n).tpb = s.tpb := rfl
@[simp] theorem State.withShed_pool (s : State) (wait : Option (Fin 4)) (n : Fin 96) :
    (s.withShed wait n).pool = s.pool := rfl
@[simp] theorem State.withShed_fe (s : State) (wait : Option (Fin 4)) (n : Fin 96) :
    (s.withShed wait n).fe = s.fe := rfl
@[simp] theorem State.withShed_pm (s : State) (wait : Option (Fin 4)) (n : Fin 96) :
    (s.withShed wait n).pm = s.pm := rfl
@[simp] theorem State.withShed_sx (s : State) (wait : Option (Fin 4)) (n : Fin 96) :
    (s.withShed wait n).sx = s.sx := rfl
@[simp] theorem State.withShed_ie (s : State) (wait : Option (Fin 4)) (n : Fin 96) :
    (s.withShed wait n).ie = s.ie := rfl
@[simp] theorem State.withShed_ds (s : State) (wait : Option (Fin 4)) (n : Fin 96) :
    (s.withShed wait n).ds = s.ds := rfl

/-! ### State.makingRoom, State.roomFor -/

@[simp] theorem State.makingRoom_now (s : State) (n : Fin 96) (d : Nat) (wait : Option (Fin 4)) (l : List (Fin 96)) :
    (s.makingRoom n d wait l).now = s.now := by
  induction l generalizing s with
  | nil => rfl
  | cons m l ih => simp only [State.makingRoom]; (repeat' split) <;> simp [ih]
@[simp] theorem State.roomFor_now (s : State) (n : Fin 96) (d : Nat) (wait : Option (Fin 4)) :
    (s.roomFor n d wait).now = s.now := State.makingRoom_now ..
@[simp] theorem State.makingRoom_pending (s : State) (n : Fin 96) (d : Nat) (wait : Option (Fin 4)) (l : List (Fin 96)) :
    (s.makingRoom n d wait l).pending = s.pending := by
  induction l generalizing s with
  | nil => rfl
  | cons m l ih => simp only [State.makingRoom]; (repeat' split) <;> simp [ih]
@[simp] theorem State.roomFor_pending (s : State) (n : Fin 96) (d : Nat) (wait : Option (Fin 4)) :
    (s.roomFor n d wait).pending = s.pending := State.makingRoom_pending ..
@[simp] theorem State.makingRoom_tpa (s : State) (n : Fin 96) (d : Nat) (wait : Option (Fin 4)) (l : List (Fin 96)) :
    (s.makingRoom n d wait l).tpa = s.tpa := by
  induction l generalizing s with
  | nil => rfl
  | cons m l ih => simp only [State.makingRoom]; (repeat' split) <;> simp [ih]
@[simp] theorem State.roomFor_tpa (s : State) (n : Fin 96) (d : Nat) (wait : Option (Fin 4)) :
    (s.roomFor n d wait).tpa = s.tpa := State.makingRoom_tpa ..
@[simp] theorem State.makingRoom_tpb (s : State) (n : Fin 96) (d : Nat) (wait : Option (Fin 4)) (l : List (Fin 96)) :
    (s.makingRoom n d wait l).tpb = s.tpb := by
  induction l generalizing s with
  | nil => rfl
  | cons m l ih => simp only [State.makingRoom]; (repeat' split) <;> simp [ih]
@[simp] theorem State.roomFor_tpb (s : State) (n : Fin 96) (d : Nat) (wait : Option (Fin 4)) :
    (s.roomFor n d wait).tpb = s.tpb := State.makingRoom_tpb ..
@[simp] theorem State.makingRoom_pool (s : State) (n : Fin 96) (d : Nat) (wait : Option (Fin 4)) (l : List (Fin 96)) :
    (s.makingRoom n d wait l).pool = s.pool := by
  induction l generalizing s with
  | nil => rfl
  | cons m l ih => simp only [State.makingRoom]; (repeat' split) <;> simp [ih]
@[simp] theorem State.roomFor_pool (s : State) (n : Fin 96) (d : Nat) (wait : Option (Fin 4)) :
    (s.roomFor n d wait).pool = s.pool := State.makingRoom_pool ..
@[simp] theorem State.makingRoom_fe (s : State) (n : Fin 96) (d : Nat) (wait : Option (Fin 4)) (l : List (Fin 96)) :
    (s.makingRoom n d wait l).fe = s.fe := by
  induction l generalizing s with
  | nil => rfl
  | cons m l ih => simp only [State.makingRoom]; (repeat' split) <;> simp [ih]
@[simp] theorem State.roomFor_fe (s : State) (n : Fin 96) (d : Nat) (wait : Option (Fin 4)) :
    (s.roomFor n d wait).fe = s.fe := State.makingRoom_fe ..
@[simp] theorem State.makingRoom_pm (s : State) (n : Fin 96) (d : Nat) (wait : Option (Fin 4)) (l : List (Fin 96)) :
    (s.makingRoom n d wait l).pm = s.pm := by
  induction l generalizing s with
  | nil => rfl
  | cons m l ih => simp only [State.makingRoom]; (repeat' split) <;> simp [ih]
@[simp] theorem State.roomFor_pm (s : State) (n : Fin 96) (d : Nat) (wait : Option (Fin 4)) :
    (s.roomFor n d wait).pm = s.pm := State.makingRoom_pm ..
@[simp] theorem State.makingRoom_sx (s : State) (n : Fin 96) (d : Nat) (wait : Option (Fin 4)) (l : List (Fin 96)) :
    (s.makingRoom n d wait l).sx = s.sx := by
  induction l generalizing s with
  | nil => rfl
  | cons m l ih => simp only [State.makingRoom]; (repeat' split) <;> simp [ih]
@[simp] theorem State.roomFor_sx (s : State) (n : Fin 96) (d : Nat) (wait : Option (Fin 4)) :
    (s.roomFor n d wait).sx = s.sx := State.makingRoom_sx ..
@[simp] theorem State.makingRoom_ie (s : State) (n : Fin 96) (d : Nat) (wait : Option (Fin 4)) (l : List (Fin 96)) :
    (s.makingRoom n d wait l).ie = s.ie := by
  induction l generalizing s with
  | nil => rfl
  | cons m l ih => simp only [State.makingRoom]; (repeat' split) <;> simp [ih]
@[simp] theorem State.roomFor_ie (s : State) (n : Fin 96) (d : Nat) (wait : Option (Fin 4)) :
    (s.roomFor n d wait).ie = s.ie := State.makingRoom_ie ..
@[simp] theorem State.makingRoom_ds (s : State) (n : Fin 96) (d : Nat) (wait : Option (Fin 4)) (l : List (Fin 96)) :
    (s.makingRoom n d wait l).ds = s.ds := by
  induction l generalizing s with
  | nil => rfl
  | cons m l ih => simp only [State.makingRoom]; (repeat' split) <;> simp [ih]
@[simp] theorem State.roomFor_ds (s : State) (n : Fin 96) (d : Nat) (wait : Option (Fin 4)) :
    (s.roomFor n d wait).ds = s.ds := State.makingRoom_ds ..

/-! ### State.decreasing, State.decreased -/

@[simp] theorem State.decreasing_now (s : State) (l : List (Fin 96)) : (s.decreasing l).now = s.now := by
  induction l generalizing s with
  | nil => rfl
  | cons m l ih => simp only [State.decreasing]; split <;> simp [ih]
@[simp] theorem State.decreased_now (s : State) : s.decreased.now = s.now := State.decreasing_now ..
@[simp] theorem State.decreasing_pending (s : State) (l : List (Fin 96)) : (s.decreasing l).pending = s.pending := by
  induction l generalizing s with
  | nil => rfl
  | cons m l ih => simp only [State.decreasing]; split <;> simp [ih]
@[simp] theorem State.decreased_pending (s : State) : s.decreased.pending = s.pending := State.decreasing_pending ..
@[simp] theorem State.decreasing_tpa (s : State) (l : List (Fin 96)) : (s.decreasing l).tpa = s.tpa := by
  induction l generalizing s with
  | nil => rfl
  | cons m l ih => simp only [State.decreasing]; split <;> simp [ih]
@[simp] theorem State.decreased_tpa (s : State) : s.decreased.tpa = s.tpa := State.decreasing_tpa ..
@[simp] theorem State.decreasing_tpb (s : State) (l : List (Fin 96)) : (s.decreasing l).tpb = s.tpb := by
  induction l generalizing s with
  | nil => rfl
  | cons m l ih => simp only [State.decreasing]; split <;> simp [ih]
@[simp] theorem State.decreased_tpb (s : State) : s.decreased.tpb = s.tpb := State.decreasing_tpb ..
@[simp] theorem State.decreasing_pool (s : State) (l : List (Fin 96)) : (s.decreasing l).pool = s.pool := by
  induction l generalizing s with
  | nil => rfl
  | cons m l ih => simp only [State.decreasing]; split <;> simp [ih]
@[simp] theorem State.decreased_pool (s : State) : s.decreased.pool = s.pool := State.decreasing_pool ..
@[simp] theorem State.decreasing_fe (s : State) (l : List (Fin 96)) : (s.decreasing l).fe = s.fe := by
  induction l generalizing s with
  | nil => rfl
  | cons m l ih => simp only [State.decreasing]; split <;> simp [ih]
@[simp] theorem State.decreased_fe (s : State) : s.decreased.fe = s.fe := State.decreasing_fe ..
@[simp] theorem State.decreasing_pm (s : State) (l : List (Fin 96)) : (s.decreasing l).pm = s.pm := by
  induction l generalizing s with
  | nil => rfl
  | cons m l ih => simp only [State.decreasing]; split <;> simp [ih]
@[simp] theorem State.decreased_pm (s : State) : s.decreased.pm = s.pm := State.decreasing_pm ..
@[simp] theorem State.decreasing_sx (s : State) (l : List (Fin 96)) : (s.decreasing l).sx = s.sx := by
  induction l generalizing s with
  | nil => rfl
  | cons m l ih => simp only [State.decreasing]; split <;> simp [ih]
@[simp] theorem State.decreased_sx (s : State) : s.decreased.sx = s.sx := State.decreasing_sx ..
@[simp] theorem State.decreasing_ie (s : State) (l : List (Fin 96)) : (s.decreasing l).ie = s.ie := by
  induction l generalizing s with
  | nil => rfl
  | cons m l ih => simp only [State.decreasing]; split <;> simp [ih]
@[simp] theorem State.decreased_ie (s : State) : s.decreased.ie = s.ie := State.decreasing_ie ..
@[simp] theorem State.decreasing_ds (s : State) (l : List (Fin 96)) : (s.decreasing l).ds = s.ds := by
  induction l generalizing s with
  | nil => rfl
  | cons m l ih => simp only [State.decreasing]; split <;> simp [ih]
@[simp] theorem State.decreased_ds (s : State) : s.decreased.ds = s.ds := State.decreasing_ds ..

/-! ### State.darkened -/

@[simp] theorem State.darkened_now (s : State) (b : Fin 4) : (s.darkened b).now = s.now := by
  unfold State.darkened
  generalize List.filter _ _ = l
  induction l generalizing s with
  | nil => rfl
  | cons m l ih => simp [ih]
@[simp] theorem State.darkened_pending (s : State) (b : Fin 4) : (s.darkened b).pending = s.pending := by
  unfold State.darkened
  generalize List.filter _ _ = l
  induction l generalizing s with
  | nil => rfl
  | cons m l ih => simp [ih]
@[simp] theorem State.darkened_tpa (s : State) (b : Fin 4) : (s.darkened b).tpa = s.tpa := by
  unfold State.darkened
  generalize List.filter _ _ = l
  induction l generalizing s with
  | nil => rfl
  | cons m l ih => simp [ih]
@[simp] theorem State.darkened_tpb (s : State) (b : Fin 4) : (s.darkened b).tpb = s.tpb := by
  unfold State.darkened
  generalize List.filter _ _ = l
  induction l generalizing s with
  | nil => rfl
  | cons m l ih => simp [ih]
@[simp] theorem State.darkened_pool (s : State) (b : Fin 4) : (s.darkened b).pool = s.pool := by
  unfold State.darkened
  generalize List.filter _ _ = l
  induction l generalizing s with
  | nil => rfl
  | cons m l ih => simp [ih]
@[simp] theorem State.darkened_fe (s : State) (b : Fin 4) : (s.darkened b).fe = s.fe := by
  unfold State.darkened
  generalize List.filter _ _ = l
  induction l generalizing s with
  | nil => rfl
  | cons m l ih => simp [ih]
@[simp] theorem State.darkened_pm (s : State) (b : Fin 4) : (s.darkened b).pm = s.pm := by
  unfold State.darkened
  generalize List.filter _ _ = l
  induction l generalizing s with
  | nil => rfl
  | cons m l ih => simp [ih]
@[simp] theorem State.darkened_sx (s : State) (b : Fin 4) : (s.darkened b).sx = s.sx := by
  unfold State.darkened
  generalize List.filter _ _ = l
  induction l generalizing s with
  | nil => rfl
  | cons m l ih => simp [ih]
@[simp] theorem State.darkened_ie (s : State) (b : Fin 4) : (s.darkened b).ie = s.ie := by
  unfold State.darkened
  generalize List.filter _ _ = l
  induction l generalizing s with
  | nil => rfl
  | cons m l ih => simp [ih]
@[simp] theorem State.darkened_ds (s : State) (b : Fin 4) : (s.darkened b).ds = s.ds := by
  unfold State.darkened
  generalize List.filter _ _ = l
  induction l generalizing s with
  | nil => rfl
  | cons m l ih => simp [ih]

/-! ### State.faultedBy -/

@[simp] theorem State.faultedBy_now (s : State) (c : Fin 4) (x : FaultCause) :
    (s.faultedBy c x).now = s.now := by
  unfold State.faultedBy; split <;> rfl
@[simp] theorem State.faultedBy_pending (s : State) (c : Fin 4) (x : FaultCause) :
    (s.faultedBy c x).pending = s.pending := by
  unfold State.faultedBy; split <;> rfl
@[simp] theorem State.faultedBy_tpa (s : State) (c : Fin 4) (x : FaultCause) :
    (s.faultedBy c x).tpa = s.tpa := by
  unfold State.faultedBy; split <;> rfl
@[simp] theorem State.faultedBy_tpb (s : State) (c : Fin 4) (x : FaultCause) :
    (s.faultedBy c x).tpb = s.tpb := by
  unfold State.faultedBy; split <;> rfl
@[simp] theorem State.faultedBy_zp (s : State) (c : Fin 4) (x : FaultCause) :
    (s.faultedBy c x).zp = s.zp := by
  unfold State.faultedBy; split <;> rfl
@[simp] theorem State.faultedBy_pool (s : State) (c : Fin 4) (x : FaultCause) :
    (s.faultedBy c x).pool = s.pool := by
  unfold State.faultedBy; split <;> rfl
@[simp] theorem State.faultedBy_fe (s : State) (c : Fin 4) (x : FaultCause) :
    (s.faultedBy c x).fe = s.fe := by
  unfold State.faultedBy; split <;> rfl
@[simp] theorem State.faultedBy_pm (s : State) (c : Fin 4) (x : FaultCause) :
    (s.faultedBy c x).pm = s.pm := by
  unfold State.faultedBy; split <;> rfl
@[simp] theorem State.faultedBy_sx (s : State) (c : Fin 4) (x : FaultCause) :
    (s.faultedBy c x).sx = s.sx := by
  unfold State.faultedBy; split <;> rfl
@[simp] theorem State.faultedBy_ie (s : State) (c : Fin 4) (x : FaultCause) :
    (s.faultedBy c x).ie = s.ie := by
  unfold State.faultedBy; split <;> rfl

/-! ### State.faulting -/

@[simp] theorem State.faulting_now (s : State) (c : Fin 4) (x : FaultCause) :
    (s.faulting c x).now = s.now := by simp only [State.faulting]; split <;> simp
@[simp] theorem State.faulting_pending (s : State) (c : Fin 4) (x : FaultCause) :
    (s.faulting c x).pending = s.pending := by simp only [State.faulting]; split <;> simp
@[simp] theorem State.faulting_tpa (s : State) (c : Fin 4) (x : FaultCause) :
    (s.faulting c x).tpa = s.tpa := by simp only [State.faulting]; split <;> simp
@[simp] theorem State.faulting_tpb (s : State) (c : Fin 4) (x : FaultCause) :
    (s.faulting c x).tpb = s.tpb := by simp only [State.faulting]; split <;> simp
@[simp] theorem State.faulting_pool (s : State) (c : Fin 4) (x : FaultCause) :
    (s.faulting c x).pool = s.pool := by simp only [State.faulting]; split <;> simp
@[simp] theorem State.faulting_fe (s : State) (c : Fin 4) (x : FaultCause) :
    (s.faulting c x).fe = s.fe := by simp only [State.faulting]; split <;> simp
@[simp] theorem State.faulting_pm (s : State) (c : Fin 4) (x : FaultCause) :
    (s.faulting c x).pm = s.pm := by simp only [State.faulting]; split <;> simp
@[simp] theorem State.faulting_sx (s : State) (c : Fin 4) (x : FaultCause) :
    (s.faulting c x).sx = s.sx := by simp only [State.faulting]; split <;> simp
@[simp] theorem State.faulting_ie (s : State) (c : Fin 4) (x : FaultCause) :
    (s.faulting c x).ie = s.ie := by simp only [State.faulting]; split <;> simp

/-! ### State.broughtBack -/

@[simp] theorem State.broughtBack_now (s : State) (n : Fin 96) :
    (s.broughtBack n).now = s.now := State.unmarked_now ..
@[simp] theorem State.broughtBack_pending (s : State) (n : Fin 96) :
    (s.broughtBack n).pending = s.pending := State.unmarked_pending ..
@[simp] theorem State.broughtBack_tpa (s : State) (n : Fin 96) :
    (s.broughtBack n).tpa = s.tpa := State.unmarked_tpa ..
@[simp] theorem State.broughtBack_tpb (s : State) (n : Fin 96) :
    (s.broughtBack n).tpb = s.tpb := State.unmarked_tpb ..
@[simp] theorem State.broughtBack_pool (s : State) (n : Fin 96) :
    (s.broughtBack n).pool = s.pool := State.unmarked_pool ..
@[simp] theorem State.broughtBack_fe (s : State) (n : Fin 96) : (s.broughtBack n).fe = s.fe := State.unmarked_fe ..
@[simp] theorem State.broughtBack_pm (s : State) (n : Fin 96) : (s.broughtBack n).pm = s.pm := State.unmarked_pm ..
@[simp] theorem State.broughtBack_sx (s : State) (n : Fin 96) : (s.broughtBack n).sx = s.sx := State.unmarked_sx ..
@[simp] theorem State.broughtBack_ie (s : State) (n : Fin 96) : (s.broughtBack n).ie = s.ie := State.unmarked_ie ..

/-! ### State.restoring -/

@[simp] theorem State.restoring_now (s : State) (l : List (Fin 96)) : (s.restoring l).now = s.now := by
  induction l generalizing s with
  | nil => rfl
  | cons n l ih => simp only [State.restoring]; (repeat' split) <;> simp [ih]
@[simp] theorem State.restoring_pending (s : State) (l : List (Fin 96)) : (s.restoring l).pending = s.pending := by
  induction l generalizing s with
  | nil => rfl
  | cons n l ih => simp only [State.restoring]; (repeat' split) <;> simp [ih]
@[simp] theorem State.restoring_tpa (s : State) (l : List (Fin 96)) : (s.restoring l).tpa = s.tpa := by
  induction l generalizing s with
  | nil => rfl
  | cons n l ih => simp only [State.restoring]; (repeat' split) <;> simp [ih]
@[simp] theorem State.restoring_tpb (s : State) (l : List (Fin 96)) : (s.restoring l).tpb = s.tpb := by
  induction l generalizing s with
  | nil => rfl
  | cons n l ih => simp only [State.restoring]; (repeat' split) <;> simp [ih]
@[simp] theorem State.restoring_pool (s : State) (l : List (Fin 96)) : (s.restoring l).pool = s.pool := by
  induction l generalizing s with
  | nil => rfl
  | cons n l ih => simp only [State.restoring]; (repeat' split) <;> simp [ih]
@[simp] theorem State.restoring_fe (s : State) (l : List (Fin 96)) : (s.restoring l).fe = s.fe := by
  induction l generalizing s with
  | nil => rfl
  | cons n l ih => simp only [State.restoring]; (repeat' split) <;> simp [ih]
@[simp] theorem State.restoring_pm (s : State) (l : List (Fin 96)) : (s.restoring l).pm = s.pm := by
  induction l generalizing s with
  | nil => rfl
  | cons n l ih => simp only [State.restoring]; (repeat' split) <;> simp [ih]
@[simp] theorem State.restoring_sx (s : State) (l : List (Fin 96)) : (s.restoring l).sx = s.sx := by
  induction l generalizing s with
  | nil => rfl
  | cons n l ih => simp only [State.restoring]; (repeat' split) <;> simp [ih]
@[simp] theorem State.restoring_ie (s : State) (l : List (Fin 96)) : (s.restoring l).ie = s.ie := by
  induction l generalizing s with
  | nil => rfl
  | cons n l ih => simp only [State.restoring]; (repeat' split) <;> simp [ih]

/-! ### State.walked -/

@[simp] theorem State.walked_now (s : State) : (s.walked).now = s.now := State.restoring_now ..
@[simp] theorem State.walked_pending (s : State) : (s.walked).pending = s.pending := State.restoring_pending ..
@[simp] theorem State.walked_tpa (s : State) : (s.walked).tpa = s.tpa := State.restoring_tpa ..
@[simp] theorem State.walked_tpb (s : State) : (s.walked).tpb = s.tpb := State.restoring_tpb ..
@[simp] theorem State.walked_pool (s : State) : (s.walked).pool = s.pool := State.restoring_pool ..
@[simp] theorem State.walked_fe (s : State) : (s.walked).fe = s.fe := State.restoring_fe ..
@[simp] theorem State.walked_pm (s : State) : (s.walked).pm = s.pm := State.restoring_pm ..
@[simp] theorem State.walked_sx (s : State) : (s.walked).sx = s.sx := State.restoring_sx ..
@[simp] theorem State.walked_ie (s : State) : (s.walked).ie = s.ie := State.restoring_ie ..

/-! ### State.overNoted -/

@[simp] theorem State.overNoted_now (s : State) (b : Fin 4) :
    (s.overNoted b).now = s.now := by
  unfold State.overNoted; split <;> rfl
@[simp] theorem State.overNoted_pending (s : State) (b : Fin 4) :
    (s.overNoted b).pending = s.pending := by
  unfold State.overNoted; split <;> rfl
@[simp] theorem State.overNoted_tpa (s : State) (b : Fin 4) :
    (s.overNoted b).tpa = s.tpa := by
  unfold State.overNoted; split <;> rfl
@[simp] theorem State.overNoted_tpb (s : State) (b : Fin 4) :
    (s.overNoted b).tpb = s.tpb := by
  unfold State.overNoted; split <;> rfl
@[simp] theorem State.overNoted_zp (s : State) (b : Fin 4) :
    (s.overNoted b).zp = s.zp := by
  unfold State.overNoted; split <;> rfl
@[simp] theorem State.overNoted_pool (s : State) (b : Fin 4) :
    (s.overNoted b).pool = s.pool := by
  unfold State.overNoted; split <;> rfl
@[simp] theorem State.overNoted_fe (s : State) (b : Fin 4) :
    (s.overNoted b).fe = s.fe := by
  unfold State.overNoted; split <;> rfl
@[simp] theorem State.overNoted_pm (s : State) (b : Fin 4) :
    (s.overNoted b).pm = s.pm := by
  unfold State.overNoted; split <;> rfl
@[simp] theorem State.overNoted_lbu (s : State) (b : Fin 4) :
    (s.overNoted b).lbu = s.lbu := by
  unfold State.overNoted; split <;> rfl
@[simp] theorem State.overNoted_sx (s : State) (b : Fin 4) :
    (s.overNoted b).sx = s.sx := by
  unfold State.overNoted; split <;> rfl
@[simp] theorem State.overNoted_ds (s : State) (b : Fin 4) :
    (s.overNoted b).ds = s.ds := by
  unfold State.overNoted; split <;> rfl
@[simp] theorem State.overNoted_ie (s : State) (b : Fin 4) :
    (s.overNoted b).ie = s.ie := by
  unfold State.overNoted; split <;> rfl

/-! ### State.overcommitted -/

@[simp] theorem State.overcommitted_now (s : State) :
    (s.overcommitted).now = s.now := by
  unfold State.overcommitted; dsimp only; split <;> simp
@[simp] theorem State.overcommitted_pending (s : State) :
    (s.overcommitted).pending = s.pending := by
  unfold State.overcommitted; dsimp only; split <;> simp
@[simp] theorem State.overcommitted_tpa (s : State) :
    (s.overcommitted).tpa = s.tpa := by
  unfold State.overcommitted; dsimp only; split <;> simp
@[simp] theorem State.overcommitted_tpb (s : State) :
    (s.overcommitted).tpb = s.tpb := by
  unfold State.overcommitted; dsimp only; split <;> simp
@[simp] theorem State.overcommitted_zp (s : State) :
    (s.overcommitted).zp = s.zp := by
  unfold State.overcommitted; dsimp only; split <;> simp
@[simp] theorem State.overcommitted_pool (s : State) :
    (s.overcommitted).pool = s.pool := by
  unfold State.overcommitted; dsimp only; split <;> simp
@[simp] theorem State.overcommitted_fe (s : State) :
    (s.overcommitted).fe = s.fe := by
  unfold State.overcommitted; dsimp only; split <;> simp
@[simp] theorem State.overcommitted_pm (s : State) :
    (s.overcommitted).pm = s.pm := by
  unfold State.overcommitted; dsimp only; split <;> simp
@[simp] theorem State.overcommitted_sx (s : State) :
    (s.overcommitted).sx = s.sx := by
  unfold State.overcommitted; dsimp only; split <;> simp
@[simp] theorem State.overcommitted_ds (s : State) :
    (s.overcommitted).ds = s.ds := by
  unfold State.overcommitted; dsimp only; split <;> simp
@[simp] theorem State.overcommitted_ie (s : State) :
    (s.overcommitted).ie = s.ie := by
  unfold State.overcommitted; dsimp only; split <;> simp

/-! ### State.fedBy -/

@[simp] theorem State.fedBy_now (s : State) (f : List Byte) : (s.fedBy f).now = s.now := rfl
@[simp] theorem State.fedBy_pending (s : State) (f : List Byte) : (s.fedBy f).pending = s.pending := rfl
@[simp] theorem State.fedBy_tpa (s : State) (f : List Byte) : (s.fedBy f).tpa = s.tpa := rfl
@[simp] theorem State.fedBy_tpb (s : State) (f : List Byte) : (s.fedBy f).tpb = s.tpb := rfl
@[simp] theorem State.fedBy_zp (s : State) (f : List Byte) : (s.fedBy f).zp = s.zp := rfl
@[simp] theorem State.fedBy_pool (s : State) (f : List Byte) : (s.fedBy f).pool = s.pool := rfl
@[simp] theorem State.fedBy_fe (s : State) (f : List Byte) : (s.fedBy f).fe = s.fe := rfl
@[simp] theorem State.fedBy_lbu (s : State) (f : List Byte) : (s.fedBy f).lbu = s.lbu := rfl
@[simp] theorem State.fedBy_sx (s : State) (f : List Byte) : (s.fedBy f).sx = s.sx := rfl
@[simp] theorem State.fedBy_ds (s : State) (f : List Byte) : (s.fedBy f).ds = s.ds := rfl
@[simp] theorem State.fedBy_ie (s : State) (f : List Byte) : (s.fedBy f).ie = s.ie := rfl
@[simp] theorem State.fedBy_mr (s : State) (f : List Byte) : (s.fedBy f).mr = s.mr := rfl

/-! ### State.resent -/

@[simp] theorem State.resent_now (s : State) (a : ActionRec) : (s.resent a).now = s.now := rfl
@[simp] theorem State.resent_pending (s : State) (a : ActionRec) : (s.resent a).pending = s.pending := rfl
@[simp] theorem State.resent_tpa (s : State) (a : ActionRec) : (s.resent a).tpa = s.tpa := rfl
@[simp] theorem State.resent_tpb (s : State) (a : ActionRec) : (s.resent a).tpb = s.tpb := rfl
@[simp] theorem State.resent_zp (s : State) (a : ActionRec) : (s.resent a).zp = s.zp := rfl
@[simp] theorem State.resent_pool (s : State) (a : ActionRec) : (s.resent a).pool = s.pool := rfl
@[simp] theorem State.resent_fe (s : State) (a : ActionRec) : (s.resent a).fe = s.fe := rfl
@[simp] theorem State.resent_pm (s : State) (a : ActionRec) : (s.resent a).pm = s.pm := rfl
@[simp] theorem State.resent_sx (s : State) (a : ActionRec) : (s.resent a).sx = s.sx := rfl
@[simp] theorem State.resent_ds (s : State) (a : ActionRec) : (s.resent a).ds = s.ds := rfl
@[simp] theorem State.resent_ie (s : State) (a : ActionRec) : (s.resent a).ie = s.ie := rfl
@[simp] theorem State.resent_mr (s : State) (a : ActionRec) : (s.resent a).mr = s.mr := rfl

/-! ### Conditions (R152 to R156) -/

theorem condTrue_of_inUse {s : State} {k : Fin 48} (h : inUse s k = true) : condTrue s k = condHolds s k := by
  simp [condTrue, h]

theorem condTrue_of_not_inUse {s : State} {k : Fin 48} (h : inUse s k = false) :
    condTrue s k = (condHolds s k && condFresh s k) := by
  simp [condTrue, h]

theorem condHolds_of_condTrue {s : State} {k : Fin 48} (h : condTrue s k = true) : condHolds s k = true := by
  simp only [condTrue, Bool.and_eq_true] at h
  exact h.1

/-- What the report of false conditions can do to a channel: nothing, when none of its list is among them or false; else
a notice of the first such condition, and IDLE or a stop request. -/
theorem Ev.conditionFalse_cases (e : Ev) (ks : List (Fin 48)) (c : Fin 4) :
    let l := (e.chan c).list (e.chan c).direction
    ((∀ k ∈ l, k ∉ ks ∧ condTrue e.s k = true) ∧ e.conditionFalse ks c = e) ∨
      ∃ k ∈ l, (k ∈ ks ∨ condTrue e.s k = false) ∧
        e.conditionFalse ks c =
          if (e.chan c).state = .armed then (e.notice .interlock c.val k.val).toIdle c
          else (e.notice .interlock c.val k.val).stopRequest c .interlock := by
  intro l
  unfold Ev.conditionFalse
  cases h : l.find? fun k => ks.contains k || !condTrue e.s k with
  | none =>
    refine .inl ⟨fun k hk => ?_, by simp only [l] at h; simp only [h]⟩
    simpa using List.find?_eq_none.mp h k hk
  | some k =>
    have p := List.find?_some h
    exact .inr ⟨k, List.mem_of_find?_eq_some h, by simpa using p, by simp only [l] at h; simp only [h]⟩

end Sys2Proof.Machine
end

