-- ==== Sys2Proof/Tests/Slice0.lean ====
section
/-! SUPPORT. Tests/Slice0.lean: the checks of WellFormed, worked numbers of the spec, and for every statement with
hypotheses states that meet them. -/

-- One theorem after the other: elaborated side by side they take a stack each, and more memory than the check allows.
set_option Elab.async false

namespace Sys2Proof.Tests

open Sys2Proof.Machine

/-! ### A small plant -/

/-- The next state of a command; every command has one. -/
def after (c : Instr) (s : State) : State :=
  match exec c s with
  | .next t => t
  | .fault _ => s
  | .refused _ => s

/-- A part assigned to zone 4 by its straps. -/
def zone4 : State := State.powerOn { Pins.quiet with straps := 4 } 0 []

/-- A listed console, an unlisted one, the controller of channel 0, and a management station on link A. -/
def console : Source := ⟨.zone, 0, ⟨4, 10⟩⟩
def stranger : Source := ⟨.zone, 0, ⟨4, 11⟩⟩
def controller : Source := ⟨.zone, 0, ⟨4, 20⟩⟩
def station : Source := ⟨.a, 9, ⟨60, 1⟩⟩

/-- A load of a type on branch 1: F 100, I 300, 500 ms of inrush, minimum level 100. -/
def loadOf (type : LoadType) (device : Byte) (priority : Fin 8) : Load :=
  { Load.zero with cfg :=
    { valid := true, device := device, output := 0, type := type, branch := 1, priority := priority, full := 100
      inrush := 300, inrushTime := 50, minLevel := 100 } }

/-- Channel 0, IDLE: controller 20, motor load 5, one console, condition 3 for direction A. -/
def winch : Channel :=
  { Channel.zero with
    state := .idle
    cfg := { valid := true, exclusion := 0b0010, controller := 20, motorLoad := 5, consoles := [⟨4, 10⟩]
             timings := ⟨3000, 300, 500, 2000, 60, 100⟩, listA := [3], listB := [] } }

/-- A load of the plant changed. -/
def onLoad (n : Fin 96) (f : Load → Load) (s : State) : State :=
  { s with lbu := { s.lbu with loads := upd s.lbu.loads n f } }

/-- The limits of mode SHORE: each branch, and the total. -/
def limited (branch total : Nat) (s : State) : State :=
  { s with lbu := { s.lbu with limits := upd s.lbu.limits 0 fun _ => ⟨#v[branch, branch, branch, branch], total⟩ } }

/-- A trunk port whose link is UP and whose transmitter is at work. -/
def busyLink (p : TrunkPort) : TrunkPort :=
  { p with link := .up, silence := some 100, beat := none, tx := some ⟨.beat, []⟩ }

/-- Zone 4 with both links UP, a motor load 5 bound to channel 0, a DIMMED load 7, SWITCHED loads 8 and 9, point 6
with the value 9, and condition 3 true. -/
def plant : State :=
  limited 1000 2000 <| onLoad 5 (fun _ => { loadOf .motor 20 2 with bound := some 0 }) <|
    onLoad 7 (fun _ => loadOf .dimmed 30 3) <| onLoad 8 (fun _ => loadOf .switched 31 1) <|
    onLoad 9 (fun _ => loadOf .switched 32 5) <|
    { zone4.modChan 0 fun _ => winch with
      tpa := busyLink zone4.tpa, tpb := busyLink zone4.tpb
      pm := { points := upd zone4.pm.points 6 fun _ => ⟨⟨true, ⟨4, 40⟩, 1⟩, .valid 9 0⟩ }
      ie := { conditions := upd zone4.ie.conditions 3 fun _ => ⟨true, 6, .ge, 5, 1000⟩ } }

/-- Channel 0 of the plant changed. -/
def onWinch (f : Channel → Channel) : State := plant.modChan 0 f

/-- The station is a manager, and requests come in at port A. -/
def managed : State :=
  { plant with mr := { plant.mr with managers := upd plant.mr.managers 0 fun _ => ⟨true, ⟨60, 1⟩⟩ } }

/-- A buffer taken, with its holders and its frame, of arrival at a port. -/
def holding (b : Fin 48) (refs : Nat) (p : Port) (bytes : List Byte) (s : State) : State :=
  s.modBuf b fun _ => ⟨false, refs, bytes, ⟨true, false, false, .port p⟩⟩

/-- A free count of 4. -/
def scarce (s : State) : State :=
  { s with pool := { s.pool with bufs := .ofFn fun i => ⟨decide (i.val < 4), if i.val < 4 then 0 else 1, [], .blank⟩ } }

/-- A STATE frame for device 0 of zone 4, a frame for device 5 of zone 9, and the first with a broken check. -/
def goodFrame : List Byte := buildFrame 4 2 .device 4 0 4 3 [0, 9]
def farFrame : List Byte := buildFrame 2 1 .device 9 5 7 3 []
def nearFrame : List Byte := buildFrame 2 1 .device 4 5 7 3 []
def badFrame : List Byte := goodFrame.dropLast ++ [0xFF]
def longFrame : List Byte := [0x04, 4, 0, 4, 0, 3, 23] ++ List.replicate 25 0
def beatFrame : List Byte := sealFrame [0x0F, 0, 0, 7, 0, 1, 0]

/-- Port A, or the Zone Port, receives into buffer 0. -/
def receiving : State := { holding 0 1 .a [] plant with tpa := { plant.tpa with rx := some ⟨some 0⟩ } }
def hearing : State := { holding 0 1 .zone [] plant with zp := { plant.zp with rx := some ⟨some 0⟩ } }

/-- The same with link A DOWN. -/
def waking : State :=
  { receiving with tpa := { receiving.tpa with link := .down, silence := none, beat := some 20, tx := none } }

/-- Port A idle, its beat timer running; and with the last byte of a BEAT to come. -/
def resting : State := { plant with tpa := { plant.tpa with tx := none, beat := some 20 } }

/-- Buffer 0 queued on link A and on the line; with a second frame, of buffer 1, behind it. -/
def sending (more : List Place) : State :=
  { holding 1 1 .zone farFrame (holding 0 1 .zone farFrame plant) with
    tpa := { plant.tpa with
      tx := some ⟨.buffer 0, farFrame⟩, queue := ⟨⟨.buffer 0 1 3 none, 0⟩ :: more, 2⟩ } }

/-- The Zone Port at an attempt. -/
def attempting (x : Shifter) (s : State) : State :=
  { s with zp := { s.zp with sending := true, shifter := some x } }

/-- The zone queue. -/
def zoneQueue (l : List Place) (s : State) : State := { s with zp := { s.zp with queue := ⟨l, l.length⟩ } }

/-- The segment FAULTED. -/
def faulted : State := { plant with zp := { plant.zp with segment := .faulted } }

/-- The frame in buffer 0 heads the hold list. -/
def held (p : Port) (bytes : List Byte) (s : State) : State :=
  { holding 0 1 p bytes s with fe := { s.fe with hold := [⟨0, p⟩] } }

/-- The part without its own zone. -/
def unassigned : State := { plant with mr := { plant.mr with ownZone := 0 } }

/-- The load drawing at a level, on the Admission List, with its demand. -/
def lit (n : Fin 96) (g d : Nat) (s : State) : State :=
  onLoad n (fun l => { l with state := .on, granted := g, committed := g, requested := g, demand := d })
    { s with lbu := { s.lbu with admission := s.lbu.admission ++ [n] } }

/-- The load in the Shed List. -/
def shedOne (n : Fin 96) (s : State) : State :=
  onLoad n (fun l => { l with state := .shed, requested := 1000 }) { s with lbu := { s.lbu with shedList := [n] } }

/-- The load in INRUSH to 500 ms. -/
def rushing (n : Fin 96) (s : State) : State :=
  onLoad n (fun l => { l with state := .inrush, granted := 1000, committed := 1000, requested := 1000, demand := 300
                              inrushTimer := .running 500 })
    { s with lbu := { s.lbu with admission := [n] } }

/-- Branch 1 tripped. -/
def tripped (s : State) : State := { s with lbu := { s.lbu with trip := upd s.lbu.trip 1 fun _ => true } }

/-- A scene of one action, delayed by 500 ms, for load 8. -/
def staged : State :=
  { managed with sx := { managed.sx with
      scenes := upd managed.sx.scenes 3 fun _ => ⟨true, 0, 1⟩
      actions := upd managed.sx.actions 0 fun _ => ⟨8, 1000, 0, 5⟩ } }

/-- Channel 0 of the plant in a state, owned by the console, in a mode and a phase; its motor load on. -/
def motion (state : ChanState) (phase : Phase) (mode : MotionMode) (s : State) : State :=
  (lit 5 1000 100 s).modChan 0 fun x =>
    { x with state := state, phase := phase, mode := mode, owner := some ⟨4, 10⟩
             enable := phase == .sent || phase == .none
             timers := { x.timers with gap := some 300, start := some 500, stop := some 2000, travel := some 60000
                                       jog := some 100 } }

/-- Channel 0 ARMED for direction A by the console. -/
def armed : State := onWinch fun x =>
  { x with state := .armed, owner := some ⟨4, 10⟩, timers := { x.timers with arm := some 3000 } }

/-- Channel 0 in FAULT. -/
def inFault (s : State) : State :=
  s.modChan 0 fun x => { x with state := .fault, faultCause := .stall, faultState := .running }

/-- The condition of the list false: its point has the value 2. -/
def lowPoint (s : State) : State :=
  { s with pm := { points := upd s.pm.points 6 fun x => { x with state := .valid 2 0 } } }

/-- The emergency-stop loop open; the drive trip of channel 0 asserted. -/
def loopCut (s : State) : State := { s with ds := { s.ds with loopOpen := true } }
def driveTripped (s : State) : State := { s with ds := { s.ds with trip := upd s.ds.trip 0 fun _ => true } }

/-- Channel 1 ARMED, and excluded by channel 0. -/
def rival (s : State) : State := s.modChan 1 fun _ => { winch with state := .armed, owner := some ⟨4, 10⟩ }

/-- One notice queued. -/
def noticed (s : State) : State := { s with mr := { s.mr with notices := [⟨.shed, 7, 500, false⟩] } }

/-- Both links DOWN. -/
def cutOff (s : State) : State := { s with tpa := { s.tpa with link := .down }, tpb := { s.tpb with link := .down } }

/-- No buffer is free. -/
def empty (s : State) : State := { s with pool := { s.pool with bufs := .replicate 48 ⟨false, 1, [], .blank⟩ } }

/-- A load has a frame due. -/
def owing (n : Fin 96) (s : State) : State := onLoad n (fun l => { l with due := true }) s

/-- Rises not yet taken. -/
def risen (s : State) : State := { s with pool := { s.pool with riseLbu := 1, riseMr := 1 } }

/-- Channel 0 ARMED, with its manager. -/
def armedManaged : State :=
  { armed with mr := managed.mr }

/-- A reception on a line that has gone dominant. -/
def stuck : State :=
  { hearing with zp := { hearing.zp with lineDominant := true, stuck := some 100 } }

/-- A FAULTED segment about to recover, load 9 drawing. -/
def recovering : State :=
  { lit 9 1000 100 faulted with zp := { faulted.zp with recovery := some 500 } }

/-- A manager, and no own zone. -/
def managedUnassigned : State :=
  { managed with mr := { managed.mr with ownZone := 0 } }

/-- Point 6 at the value 2. -/
def managedLow : State :=
  { managed with pm := (lowPoint managed).pm }

/-- A notice that waits for an entry to UP. -/
def waitingUp : State :=
  { noticed plant with mr := { (noticed plant).mr with waitUp := true } }

/-- A dominant line. -/
def dominant : State :=
  { plant with zp := { plant.zp with lineDominant := true } }

/-- A STOP in the shifter after one attempt. -/
def retrying : State :=
  { plant with zp := { plant.zp with shifter := some ⟨.slot 0 .stop, [], 1⟩ } }

/-- STOPPING after a stall. -/
def stalledStop : State :=
  (motion .stopping .none .run plant).modChan 0 fun x => { x with stopCause := .stall }

/-- Channel 0 ARMED by another console. -/
def foreignArmed : State :=
  armed.modChan 0 fun x => { x with owner := some ⟨4, 12⟩ }

/-- A START on the line, its motor load waiting for it. -/
def startOnLine : State :=
  attempting ⟨.slot 0 .startA, [], 0⟩ (onLoad 5 (fun l => { l with state := .inrush, inrushTimer := .waiting }) (motion .starting .sent .run plant))

/-- A STATE frame of two values, the second for point 6, with no condition in use. -/
def feeding : State :=
  held .zone (buildFrame 4 2 .device 4 0 4 3 [0, 9, 0, 3]) { plant with ds := zone4.ds, pm := { points := upd zone4.pm.points 6 fun _ => ⟨⟨true, ⟨4, 0⟩, 1⟩, .unknown⟩ } }

/-- Load 7 in a rising fade. -/
def fadingUp : State :=
  onLoad 7 (fun l => { l with fade := .rising 500 }) (lit 7 500 50 plant)

/-- Load 7 in a fade to 0. -/
def fadingOff : State :=
  onLoad 7 (fun l => { l with granted := 0, fade := .falling 500 }) (lit 7 500 50 plant)

/-- Load 7 in a fade to 1. -/
def fadingDown : State :=
  onLoad 7 (fun l => { l with granted := 1, fade := .falling 500 }) (lit 7 500 50 plant)

/-- A restart reply pending for link A, at a rise. -/
def replyPending : State :=
  risen { managed with mr := { managed.mr with pendingReply := some ⟨10, 7, ⟨60, 1⟩, .a⟩ } }

/-- A START in slot 0, its place at the head. -/
def startQueued : State :=
  zoneQueue [⟨.slot 0, 0⟩] ((motion .starting .queued .run plant).modChan 0 fun x => { x with command := some ⟨.startA, 20⟩ })

/-- Scene 3 in slot 0, its entry for load 8, which is ON. -/
def actionDue : State :=
  { lit 8 1000 100 staged with sx := { staged.sx with delayed := [⟨500, 0, 0, 8, 1000, 0⟩], slots := upd staged.sx.slots 0 fun _ => some ⟨3, 0⟩ } }

/-- Scene 3 in slot 0, its entry waiting. -/
def sceneWaiting : State :=
  { staged with sx := { staged.sx with delayed := [⟨500, 0, 0, 8, 1000, 0⟩], slots := upd staged.sx.slots 0 fun _ => some ⟨3, 0⟩ } }

/-- The payload of a LEVEL_REQ (R9). -/
def req (n l f : Nat) : List Byte := [BitVec.ofNat 8 n, BitVec.ofNat 8 (l / 256), BitVec.ofNat 8 l, BitVec.ofNat 8 f]

/-- The configuration of a SWITCHED load, and the same above the greatest figures. -/
def offLoad : LoadCfg := (loadOf .switched 31 1).cfg
def bigLoad : LoadCfg := { offLoad with full := 3001, inrush := 6001 }

/-- Port A, or the Zone Port, follows a frame dropped whole. -/
def deaf : State := { plant with tpa := { plant.tpa with rx := some ⟨none⟩ } }
def deafZone : State := { plant with zp := { plant.zp with rx := some ⟨none⟩ } }

/-- Channel 0 waits in STARTING for load 9, the frame of which, at level 0, is at an attempt. -/
def darkening (attempts : Nat) : State :=
  let f := buildFrame 2 1 .device 4 32 4 15 [0, 0, 0, 0]
  let s := onLoad 9 (fun l => { l with state := .shed, waiting := some 0 }) (motion .starting .shedding .run plant)
  attempting ⟨.buffer 0, f, attempts⟩ <| zoneQueue [⟨.buffer 0 1 15 none, 0⟩] <|
    s.modBuf 0 fun _ => ⟨false, 1, f, ⟨true, false, false, .internal⟩⟩

/-- The same with load 8 to wait for as well. -/
def darkeningTwo (attempts : Nat) : State := onLoad 8 (fun l => { l with waiting := some 0 }) (darkening attempts)

/-- A frame forwarded to the segment, at its last attempt. -/
def lastTry : State :=
  attempting ⟨.buffer 0, farFrame, 7⟩ (zoneQueue [⟨.buffer 0 1 3 none, 0⟩] (holding 0 1 .a farFrame plant))

/-- Room for the motor load beside load 9 only by shedding it; beside load 8 not at all. -/
def tight (s : State) : State := limited 300 2000 (lit 9 1000 100 s)
def tighter (s : State) : State := limited 299 2000 (lit 9 1000 100 s)
def full (s : State) : State := limited 300 2000 (lit 8 1000 100 s)

/-- Slots and entries of the Scene Expander, with scene 3 stored. -/
def scenes (l : Vector (Option SceneSlot) 4) (d : List Delayed) : State :=
  { staged with sx := { staged.sx with slots := l, delayed := d, nextRecall := 9 } }

/-- Scene 3 in slot 2; entries of slots 1 and 3 for its load and another. -/
def restarting : State :=
  scenes #v[none, some ⟨5, 3⟩, some ⟨3, 4⟩, some ⟨6, 2⟩]
    [⟨100, 2, 0, 8, 500, 0⟩, ⟨200, 3, 7, 8, 0, 0⟩, ⟨300, 1, 5, 8, 0, 0⟩, ⟨400, 1, 6, 7, 0, 0⟩]

/-- Slot 1 is the lowest FREE one; slot 0 waits with an entry for load 8. -/
def freeSecond : State := scenes #v[some ⟨5, 3⟩, none, none, none] [⟨200, 0, 7, 8, 0, 0⟩]

/-- No slot is FREE; slot 1 is the earliest. -/
def crowded : State :=
  scenes #v[some ⟨5, 3⟩, some ⟨6, 2⟩, some ⟨7, 4⟩, some ⟨8, 5⟩]
    [⟨200, 0, 7, 7, 0, 0⟩, ⟨200, 1, 8, 9, 0, 0⟩, ⟨500, 2, 9, 7, 0, 0⟩, ⟨700, 3, 10, 7, 0, 0⟩]

/-- Scene 3 with its action at once. -/
def stagedNow : State :=
  { staged with sx := { staged.sx with actions := upd staged.sx.actions 0 fun _ => ⟨8, 1000, 0, 0⟩ } }

/-- The Delayed Action List full of entries of slot 0; load 8 ON. -/
def brimming : State :=
  lit 8 1000 100 (scenes #v[some ⟨5, 3⟩, none, none, none] (List.replicate 128 ⟨200, 0, 7, 7, 0, 0⟩))

/-- Channel 0 ARMED on a condition that has outlived its limit, its expiry not yet taken. -/
def overdue : State := { armed with now := 1001 }

/-- A second motor load, number 10. -/
def twoMotors (s : State) : State := onLoad 10 (fun _ => loadOf .motor 40 2) s

/-- A restart reply pending for link A, which is about to come UP. -/
def wakingReply : State := { waking with mr := { waking.mr with pendingReply := some ⟨10, 7, ⟨60, 1⟩, .a⟩ } }

/-- Buffer 1 queued on link A behind a BEAT on the line. -/
def behindBeat : State :=
  { holding 1 1 .zone farFrame plant with tpa := { plant.tpa with queue := ⟨[⟨.buffer 1 2 3 none, 1⟩], 2⟩ } }

/-- The line of a state stuck dominant, its stuck timer running; and the segment of a state FAULTED and about to
recover. -/
def stuckLine (s : State) : State := { s with zp := { s.zp with lineDominant := true, stuck := some 100 } }
def recovers (s : State) : State := { s with zp := { s.zp with segment := .faulted, recovery := some 500 } }

/-- The zone queue at 44 buffer places. -/
def jammed (s : State) : State := zoneQueue (List.replicate 44 ⟨.buffer 1 1 3 none, 0⟩) s

/-- Both managers valid; the second alone; the mark of the head notice; a second notice queued. -/
def twoManagers (s : State) : State := { s with mr := { s.mr with managers := #v[⟨true, ⟨60, 1⟩⟩, ⟨true, ⟨60, 2⟩⟩] } }
def secondManager (s : State) : State := { s with mr := { s.mr with managers := #v[⟨false, ⟨60, 1⟩⟩, ⟨true, ⟨60, 2⟩⟩] } }
def marked (k : Nat) (s : State) : State := { s with mr := { s.mr with headMark := k } }
def twoNotices (s : State) : State :=
  { s with mr := { s.mr with notices := [⟨.shed, 7, 500, false⟩, ⟨.overcommit, 4, 65535, true⟩] } }
def fullNotices (s : State) : State := { s with mr := { s.mr with notices := List.replicate 16 ⟨.shed, 7, 500, false⟩ } }

/-- One link UP only. -/
def onlyA (s : State) : State := { s with tpb := { s.tpb with link := .down } }

/-- A RESTART from the station, in a frame. -/
def restartFrame : List Byte := sealFrame [byte0 7 2 .device, 4, 0, 60, 1, 9, 2, 10, 7]

/-- A GROUP frame and a frame for the ship; a frame with hop budget 1. -/
def groupFrame : List Byte := buildFrame 2 1 .group 4 6 7 3 []
def shipFrame : List Byte := buildFrame 2 1 .shipAll 0 0 7 3 []
def lastHop : List Byte := buildFrame 2 1 .shipAll 0 0 7 1 []

/-- A route for every frame, with an action and a rewrite group. -/
def routed (a : Action) (g : Option Byte) (s : State) : State :=
  { s with fe := { s.fe with routes := upd s.fe.routes 5 fun _ => ⟨true, .any, none, none, none, none, a, g⟩ } }

/-- A STATE frame of the source of point 6, its second value as given, heads the hold list. -/
def told (v : Byte) (s : State) : State :=
  held .zone (sealFrame [byte0 4 2 .device, 4, 0, 4, 40, 3, 4, 0, 9, 0, v]) s

/-- The selector names point 6; the limits of a mode. -/
def following (s : State) : State := { s with lbu := { s.lbu with selector := .fromPoint 6 } }
def limits (m : Fin 4) (branch total : Nat) (s : State) : State :=
  { s with lbu := { s.lbu with limits := upd s.lbu.limits m fun _ => ⟨#v[branch, branch, branch, branch], total⟩ } }

/-- Load 9 drawing 100 on branch 1, of priority 5; load 8 drawing 100 there with priority 0. -/
def victim (s : State) : State := lit 9 1000 100 s
def essential (s : State) : State := lit 8 1000 100 (onLoad 8 (fun l => { l with cfg := { l.cfg with priority := 0 } }) s)

/-- Every OVERCOMMIT flag set. -/
def flagged (s : State) : State :=
  { s with lbu := { s.lbu with overBranch := #v[true, true, true, true], overTotal := true } }

/-- Point 6 at the value of the present mode. -/
def managedZero : State :=
  { managed with pm := { points := upd managed.pm.points 6 fun x => { x with state := .valid 0 0 } } }

/-- The same STATE frame for the ship and for another device of the zone; and, point 6 of another source, from zone 60 by
link A with a route of its own. -/
def toldShip (v : Byte) (s : State) : State := held .zone (sealFrame [byte0 4 2 .shipAll, 0, 0, 4, 40, 3, 4, 0, 9, 0, v]) s
def toldNear (v : Byte) (s : State) : State := held .zone (sealFrame [byte0 4 2 .device, 4, 9, 4, 40, 3, 4, 0, 9, 0, v]) s
def toldAway (v : Byte) (a : Action) (s : State) : State :=
  (fun s => { s with pm := { points := upd s.pm.points 6 fun x => { x with cfg.source := ⟨60, 1⟩ } } })
    (routed a none (held .a (sealFrame [byte0 4 2 .zoneAll, 4, 0, 60, 1, 3, 4, 0, 9, 0, v]) s))

/-- Scene 3 with a run of actions from index 0; a run of both kinds, and one whose every action sends a level again. -/
def scored (run : List ActionRec) (s : State) : State :=
  { s with sx := { s.sx with
      scenes := upd s.sx.scenes 3 fun _ => ⟨true, 0, run.length⟩, actions := storeActions s.sx.actions 0 run } }
def mixed : List ActionRec :=
  [⟨8, 1000, 0, 0⟩, ⟨9, 500, 0, 5⟩, ⟨7, 0, 3, 0⟩, ⟨9, 600, 0, 5⟩, ⟨7, 0, 9, 0⟩, ⟨9, 0, 0, 2⟩]
def quiet : List ActionRec := [⟨8, 1000, 0, 5⟩, ⟨7, 0, 3, 0⟩, ⟨7, 0, 4, 5⟩, ⟨8, 500, 0, 7⟩, ⟨7, 0, 9, 3⟩]
def asking : List ActionRec :=
  [⟨8, 1000, 0, 0⟩, ⟨9, 1000, 0, 0⟩, ⟨7, 500, 2, 0⟩, ⟨12, 500, 0, 0⟩, ⟨7, 300, 0, 4⟩, ⟨7, 200, 0, 0⟩, ⟨5, 9, 0, 0⟩]

/-- The Delayed Action List at 127 entries of slot 0, load 8 ON. -/
def nearlyFull : State :=
  lit 8 1000 100 (scenes #v[some ⟨5, 3⟩, none, none, none] (List.replicate 127 ⟨200, 0, 7, 11, 0, 0⟩))

/-- Scene 4 holds actions 9 and 10. -/
def reserved : State := { staged with sx := { staged.sx with scenes := upd staged.sx.scenes 4 fun _ => ⟨true, 9, 2⟩ } }


/-- The zone line idle; both trunk transmitters at rest. -/
def freeLine (s : State) : State := { s with zp := { s.zp with lineIdle := true } }
def restLinks (s : State) : State :=
  { s with tpa := { s.tpa with tx := none, beat := some 20 }, tpb := { s.tpb with tx := none, beat := some 20 } }

/-- The inrush time of a load 0. -/
def atOnce (n : Fin 96) (s : State) : State := onLoad n (fun l => { l with cfg.inrushTime := 0 }) s

/-- A Shed List of four: load 11 of branch 2, which is tripped, SWITCHED loads 9 and 12, and the DIMMED load 7. -/
def manyShed (s : State) : State :=
  let off := fun (q : Nat) (l : Load) => { l with state := .shed, requested := q }
  let s := onLoad 7 (off 500) <| onLoad 9 (off 1000) <| onLoad 12 (fun _ => off 1000 (loadOf .switched 35 4)) <|
    onLoad 11 (fun _ => off 1000 { loadOf .switched 34 0 with cfg.branch := 2 }) s
  { s with lbu := { s.lbu with shedList := [11, 9, 7, 12], trip := upd s.lbu.trip 2 fun _ => true } }

/-- The head of them alone. -/
def headShed (s : State) : State := (fun s => { s with lbu := { s.lbu with shedList := [11] } }) (manyShed s)

/-- The list without load 7. -/
def threeShed (s : State) : State := (fun s => { s with lbu := { s.lbu with shedList := [11, 9, 12] } }) (manyShed s)

/-- A load's frame is waited for by channel 0. -/
def awaited (n : Fin 96) (s : State) : State := onLoad n (fun l => { l with waiting := some 0 }) s

/-- Channel 1 in a state, with motor load 10. -/
def second (state : ChanState) (phase : Phase) (s : State) : State :=
  (lit 10 1000 100 (onLoad 10 (fun _ => { loadOf .motor 21 4 with bound := some 1 }) s)).modChan 1 fun _ =>
    { winch with
      state := state, phase := phase, owner := some ⟨4, 10⟩
      cfg := { winch.cfg with controller := 21, motorLoad := 10, exclusion := 0, listA := [] } }

/-- A STOP in the slot of channel 0, its place in the zone queue. -/
def stopWaits (s : State) : State :=
  (zoneQueue [⟨.slot 0, 0⟩] s).modChan 0 fun x => { x with command := some ⟨.stop, 20⟩ }

/-- Load 7 with F 0; load 7 OFF with a START waiting for its mark. -/
def drawless (s : State) : State := onLoad 7 (fun l => { l with cfg.full := 0 }) s
def shedding (s : State) : State := motion .starting .shedding .run s

/-- The station at link B and on the segment. -/
def stationB : Source := { station with port := .b }
def stationZ : Source := { station with port := .zone }

/-- Limits above those of mode SHORE, for a mode. -/
def ample (m : Fin 4) (s : State) : State := limits m 1100 2500 s

/-- Channel 0 owned by another console. -/
def foreign (s : State) : State := s.modChan 0 fun x => { x with owner := some ⟨4, 12⟩ }

/-- The segment of the managed part receiving, following a frame dropped whole, and with a frame at its last attempt. -/
def hearingManaged : State := { hearing with mr := managed.mr }
def deafManaged : State := { deafZone with mr := managed.mr }
def queuedManaged : State := { lastTry with mr := managed.mr }

/-- Loads 9, 12 and 14 drawing on branch 1, of priorities 5, 5 and 4; loads 13 and 15 on branch 2, of priorities 6 and 7, the
last in a fade to 0; loads 20 and 21 in the Shed List, of priorities 4 and 6. -/
def manyLit (s : State) : State :=
  let on := fun (n : Fin 96) (t : LoadType) (p : Fin 8) (b : Fin 4) (s : State) =>
    lit n 1000 100 (onLoad n (fun _ => { loadOf t (byteOf (30 + n.val)) p with cfg.branch := b }) s)
  let off := fun (n : Fin 96) (p : Fin 8) =>
    onLoad n fun _ => { loadOf .switched (byteOf (30 + n.val)) p with state := .shed, requested := 1000 }
  let s := on 15 .dimmed 7 2 <| on 14 .dimmed 4 1 <| on 13 .switched 6 2 <| on 12 .switched 5 1 <| on 9 .switched 5 1 s
  let s := off 20 4 <| off 21 6 <| onLoad 15 (fun l => { l with requested := 0, granted := 0, fade := .falling 900 }) s
  { s with lbu := { s.lbu with shedList := [20, 21], nextShed := 7 } }

/-- Channel 1 in a state, its condition list that of channel 0; with a condition of its own, 4, on point 5 at value 8, the
point being at position 0 of the same source. -/
def bothUse (state : ChanState) (phase : Phase) (s : State) : State :=
  (second state phase s).modChan 1 fun x => { x with cfg.listA := [3], cfg.consoles := [⟨4, 10⟩] }
def crossed (s : State) : State :=
  { s.modChan 1 fun x => { x with cfg.listA := [3, 4] } with
    pm := { points := upd s.pm.points 5 fun _ => ⟨⟨true, ⟨4, 40⟩, 0⟩, .valid 8 0⟩ }
    ie := { conditions := upd s.ie.conditions 4 fun _ => ⟨true, 5, .eq, 8, 0⟩ } }

/-- An ASSIGN_ZONE to zone 5 and a RESTART, for device 0 of zone 0. -/
def assignFrame : List Byte := sealFrame [byte0 7 2 .device, 0, 0, 60, 1, 9, 3, 2, 7, 5]
def restartZero : List Byte := sealFrame [byte0 7 2 .device, 0, 0, 60, 1, 9, 2, 10, 7]
/-! ### WellFormed: each check refuses a term -/

theorem test_bytes_refused : (Instr.zoneFrameEnd (List.replicate 265 0)).wf = false := by decide +kernel

theorem test_payload_refused : (Instr.levelReq console (List.replicate 23 0)).wf = false := by decide

theorem test_record_refused : (Instr.writeRoute station 7 0 (List.replicate 18 0)).wf = false := by decide

theorem test_selector_refused : (Instr.setModeManual station 7 4 0).wf = false := by decide

theorem test_request_accepted : (Instr.levelReq console (req 12 600 20)).wf = true := by decide

/-! ### Worked numbers of the spec -/

/-- 1.11: the header of the LEVEL_SET for output 3 of dimmer 18. -/
theorem test_level_set_header :
    (buildFrame 2 1 .device 4 18 4 15 [3, 2, 88, 20]).take 7 = [0x24, 4, 18, 4, 0, 15, 4] := by decide +kernel

/-- 6.11 case A: load 22 at 250 on a branch with 470 of 600, asked for 1000 with fade 30. -/
def caseA : State :=
  { lit 22 250 60 (onLoad 22 (fun _ => { loadOf .dimmed 10 3 with cfg := { (loadOf .dimmed 10 3).cfg with full := 240 } })
      (onLoad 50 (fun _ => { loadOf .switched 11 0 with state := .on, demand := 410 })
        (onLoad 51 (fun _ => { (loadOf .switched 12 0) with
          state := .on, demand := 680, cfg := { (loadOf .switched 12 0).cfg with branch := 2 } }) zone4))) with
    lbu.limits := .replicate 4 ⟨#v[0, 600, 2000, 0], 1400⟩ }

theorem test_case_a_account : caseA.lbu.commit 1 = 470 ∧ caseA.lbu.total = 1150 := by decide +kernel

theorem test_case_a_clamped :
    let t := after (.levelReq console (req 22 1000 30)) caseA
    let l := t.lbu.loads[22]
    (l.committed, l.granted, l.requested, l.demand, t.lbu.commit 1, t.lbu.total) = (791, 791, 1000, 190, 600, 1280) ∧
      l.fade = .rising 3000 ∧ t.mr.notices = [⟨.clamped, 22, 791, false⟩] := by
  decide +kernel

/-- 6.11 case B: the windlass, load 0 of branch 0, asks for 1300 beside the lights, the heater and the pump. -/
def caseB : State :=
  let base : Nat → Nat → Nat → LoadType → Byte → Fin 8 → Load := fun f i t type d p =>
    { Load.zero with cfg := ⟨true, d, 0, type, 0, p, f, i, t, 50⟩ }
  let s := onLoad 4 (fun _ => base 300 0 0 .dimmed 10 5) <| onLoad 5 (fun _ => base 450 450 0 .switched 11 6) <|
    onLoad 6 (fun _ => base 400 1200 30 .switched 12 4) <|
    onLoad 0 (fun _ => { base 220 1300 40 .motor 20 1 with bound := some 0 }) <|
    onLoad 60 (fun _ => { loadOf .switched 13 0 with state := .on, demand := 900 }) zone4
  let s := lit 6 1000 400 (lit 5 1000 450 (lit 4 500 150 s))
  { s.modChan 0 fun _ => { winch with
      state := .armed, owner := some ⟨4, 10⟩, cfg := { winch.cfg with motorLoad := 0, listA := [] } } with
    lbu.limits := .replicate 4 ⟨#v[1500, 1500, 1500, 1500], 2400⟩ }

theorem test_case_b_sheds :
    let t := after (.runContinue console 0) caseB
    (t.lbu.commit 0, t.lbu.total) = (1300, 2200) ∧ t.lbu.shedList = [6, 4, 5] ∧ (t.chan 0).phase = .shedding ∧
      t.mr.notices = [⟨.shed, 5, 1000, false⟩, ⟨.shed, 4, 500, false⟩, ⟨.shed, 6, 1000, false⟩] := by
  decide +kernel

/-- 7.8: dinner, scene 11, recalled at 3000 over evening, scene 10, which waits in slot 0. -/
def evening : State :=
  { zone4 with
    now := 3000
    sx := { zone4.sx with
      scenes := upd zone4.sx.scenes 11 fun _ => ⟨true, 210, 3⟩
      actions := storeActions zone4.sx.actions 210 [⟨22, 700, 10, 0⟩, ⟨25, 500, 20, 30⟩, ⟨23, 200, 20, 60⟩]
      slots := upd zone4.sx.slots 0 fun _ => some ⟨10, 1⟩
      nextRecall := 2
      delayed := [⟨5000, 0, 202, 22, 300, 30⟩, ⟨10000, 0, 203, 23, 800, 10⟩, ⟨15000, 0, 204, 24, 0, 50⟩] } }

theorem test_dinner_wins :
    let t := after (.scene console [11]) evening
    t.sx.delayed.map (fun d => (d.due, d.slot, d.action)) = [(6000, 1, 211), (9000, 1, 212), (15000, 0, 204)] ∧
      t.sx.slots[1] = some ⟨11, 2⟩ := by
  decide +kernel

/-- 8.11, steps 6 and 7: START_A completes at 2111, and MOVING comes at 2180. -/
theorem test_start_completes :
    let s : State := attempting ⟨.slot 0 .startA, [], 0⟩ <|
      onLoad 5 (fun l => { l with state := .inrush, inrushTimer := .waiting, cfg.inrushTime := 20 })
        { motion .starting .sent .run plant with now := 2111 }
    let t := after .zoneAttemptComplete s
    (t.chan 0).enable = true ∧ (t.chan 0).timers.start = some 2611 ∧
      (t.lbu.loads[5]).inrushTimer = .running 2311 := by
  decide +kernel

/-- R156: the condition of channel 0 is stale at 1001, and RUN_CONTINUE is taken before its expiry; another channel's
check of a condition out of use finds it stale. -/
theorem test_run_before_expiry :
    let t := after (.runContinue console 0) overdue
    let u := after (.freshnessExpiry 3) t
    (t.chan 0).state = .starting ∧ ((u.chan 0).state, (u.chan 0).stopCause) = (.idle, .interlock) ∧
      condTrue { plant with now := 1001 } 3 = false := by
  decide +kernel

/-- R21, R25: the frame that a start mark or an idle line cuts short is judged too long from its byte 6. -/
theorem test_cut_too_long :
    let t := after (.trunkFrameStart .a (longFrame.take 7)) receiving
    let u := after (.zoneLineIdle (longFrame.take 7)) hearing
    (t.tpa.counters.longOrAborted, t.tpa.counters.badCheck, (t.buf 0).status.good) = (1, 0, false) ∧
      (u.zp.counters.longOrAborted, (u.buf 0).status.tooLong, (u.buf 0).status.aborted) = (1, true, true) := by
  decide +kernel

theorem test_moving_runs :
    let t := after (.moving controller) { motion .starting .sent .run plant with now := 2180 }
    (t.chan 0).state = .running ∧ (t.chan 0).timers.start = none ∧ (t.chan 0).timers.travel = some 62180 := by
  decide +kernel

/-! ### The laws hold in states at work -/

/-- Channel 0 under way; and two frames on link A, the first on the line. -/
def underWay : State := motion .running .none .run plant
def queued : State := sending [⟨.buffer 1 2 3 none, 1⟩]

theorem test_laws_under_way : DriveSafe underWay ∧ ExclusionLaw underWay ∧ InterlockLaw underWay := by
  unfold DriveSafe ExclusionLaw InterlockLaw; decide +kernel

theorem test_laws_queued : QueueLaw queued ∧ PoolLaw queued := by
  unfold QueueLaw PoolLaw State.sendsHeld TrunkPort.lawful Queue.ordered; decide +kernel

theorem test_law_scenes : SceneLaw sceneWaiting.sx := by
  refine ⟨by decide, by decide, by decide +kernel, by decide +kernel, ?_, by decide +kernel⟩
  have h : ∀ i : Fin 4, (sceneWaiting.sx.slots[i.val]).isSome = true → i = 0 := by decide +kernel
  intro i j a b hi hj _
  rw [h i (by rw [hi]; rfl), h j (by rw [hj]; rfl)]

theorem test_laws_noticed : NoticeLaw (noticed plant).mr ∧ CounterLaw (noticed plant) := by
  unfold NoticeLaw CounterLaw Counters.bounded; decide +kernel

/-- Load 9 shed, load 8 drawing. -/
def shedAndDrawing : State := (fun s => { s with lbu := { s.lbu with nextShed := 1 } }) (lit 8 1000 100 (shedOne 9 plant))

theorem test_law_budget : BudgetLaw underWay ∧ BudgetLaw shedAndDrawing := by
  unfold BudgetLaw Budget.listed Load.accounted Budget.withinLimits MotorLaw
  refine ⟨⟨?_, ?_, ?_, ?_⟩, ⟨?_, ?_, ?_, ?_⟩⟩ <;> decide +kernel

/-! ### For every statement with hypotheses, states and operands that meet them

The clauses of a witness follow the clauses of its statement. -/

theorem witness_StepTakesFront : plant.pending = [] := by decide

/-- Any command: here a line that goes dominant. -/
theorem witness_CommandsKeepQueue :
    exec .lineGoesDominant plant = .next { plant with zp := { plant.zp with
      lineDominant := true, lineIdle := false, stuck := some 100, recovery := none } } := by
  rfl

theorem witness_OwnZoneKept : exec (.estopLoopClose) plant = .next { plant with ds := { plant.ds with loopOpen := false } } := by
  rfl

/-- A state with a command in front, for the laws. -/
def waitingFor (s : State) : State := { s with pending := [.estopLoopClose] }

theorem step_waitingFor (s : State) :
    step (waitingFor s) = .next { s with ds := { s.ds with loopOpen := false }, pending := [] } := by
  rfl

theorem witness_DriveSafeKept : DriveSafe (waitingFor underWay) ∧ ∃ t, step (waitingFor underWay) = .next t :=
  ⟨test_laws_under_way.1, _, step_waitingFor underWay⟩

theorem witness_ExclusionKept : ExclusionLaw (waitingFor underWay) ∧ ∃ t, step (waitingFor underWay) = .next t :=
  ⟨test_laws_under_way.2.1, _, step_waitingFor underWay⟩

theorem witness_InterlockKept :
    (InterlockLaw (waitingFor underWay) ∧ ∃ t, step (waitingFor underWay) = .next t) ∧
      inUse plant 3 = false ∧ inUse armed 3 = true :=
  ⟨⟨test_laws_under_way.2.2, _, step_waitingFor underWay⟩, by decide +kernel, by decide +kernel⟩

theorem witness_QueuesKept :
    (QueueLaw (waitingFor queued) ∧ ∃ t, step (waitingFor queued) = .next t) ∧
      ([⟨.slot 0, 7⟩, ⟨.buffer 1 1 3 none, 5⟩, ⟨.buffer 0 2 3 none, 1⟩] : List Place).Pairwise (fun x y => x.cls ≤ y.cls) :=
  ⟨⟨test_laws_queued.1, _, step_waitingFor queued⟩, by decide +kernel⟩

theorem witness_PoolKept : PoolLaw (waitingFor queued) ∧ ∃ t, step (waitingFor queued) = .next t :=
  ⟨test_laws_queued.2, _, step_waitingFor queued⟩

theorem witness_ScenesKept :
    (SceneLaw (waitingFor sceneWaiting).sx ∧ ∃ t, step (waitingFor sceneWaiting) = .next t) ∧
      restarting.sx.delayed.Pairwise (fun x y => before restarting.sx.order y x = false) :=
  ⟨⟨test_law_scenes, _, step_waitingFor sceneWaiting⟩, by decide +kernel⟩

theorem witness_BudgetKept :
    (BudgetLaw (waitingFor underWay) ∧ ∃ t, step (waitingFor underWay) = .next t) ∧
      BudgetLaw (waitingFor shedAndDrawing) ∧ ∃ t, step (waitingFor shedAndDrawing) = .next t :=
  ⟨⟨test_law_budget.1, _, step_waitingFor underWay⟩, test_law_budget.2, _, step_waitingFor shedAndDrawing⟩

theorem witness_NoticesAndCountersKept :
    (NoticeLaw (waitingFor (noticed plant)).mr ∧ CounterLaw (waitingFor (noticed plant))) ∧
      (∃ t, step (waitingFor (noticed plant)) = .next t) ∧ (noticed plant).mr.notices.length < 16 ∧
      15 ≤ (fullNotices plant).mr.notices.dropLast.length ∧ 65535 ≤ 65535 :=
  ⟨test_laws_noticed, ⟨_, step_waitingFor (noticed plant)⟩, by decide +kernel, by decide +kernel, by decide⟩

theorem witness_FramesReadBack :
    (List.replicate 22 (0 : Byte)).length ≤ 22 ∧ goodFrame.length = 9 + frameLen goodFrame := by
  decide +kernel

theorem witness_PoolGrantsAndReturns :
    1 ≤ 5 ∧ (scarce plant).pool.freeCount < 5 ∧ 5 ≤ plant.pool.freeCount ∧ 2 ≤ ((holding 3 2 .a [] plant).buf 3).refs ∧
      ((holding 3 1 .a [] plant).buf 3).refs = 1 := by
  decide +kernel

/-- The greatest values that the records hold, and records that decode. -/
def fullRoute : Route := ⟨true, .any, some 15, some .shipAll, some (63, 255), some 60, .drop, some 255⟩
def fullChannel : ChanCfg :=
  { winch.cfg with
    consoles := List.replicate 4 ⟨4, 10⟩, listA := [0, 1, 2, 3, 46, 47], listB := [47, 5, 4, 3, 2, 1]
    timings := ⟨65535, 65535, 65535, 65535, 65535, 65535⟩ }

theorem witness_RecordsReadBack :
    (let c : LoadCfg := { offLoad with full := 65535, inrush := 65535, inrushTime := 255, minLevel := 65535 };
      (c.full < 65536 ∧ c.inrush < 65536 ∧ c.inrushTime < 256 ∧ c.minLevel < 65536) ∧
        decodeLoad (loadRecord c) = some c) ∧
    (((∀ z d, fullRoute.value = some (z, d) → z ≤ 63) ∧ (∀ z, fullRoute.originZone = some z → z ≤ 60) ∧
        ∀ g, fullRoute.rewrite = some g → g ≠ 0) ∧ decodeRoute (routeRecord fullRoute) = some fullRoute) ∧
    (let l : Limits := ⟨#v[65535, 65535, 65535, 65535], 65535⟩;
      (∀ b : Fin 4, l.branch[b.val] < 65536) ∧ l.total < 65536) ∧
    decodePoint [0xFF, 4, 40, 9] = some ⟨true, ⟨4, 40⟩, 9⟩ ∧
    (let c : Condition := ⟨true, 63, .bitsClear, 0xFFFF, 65535⟩;
      c.limit < 65536 ∧ decodeCondition [0xFB, 63, 255, 255, 255, 255] = some c) ∧
    (let t : Timings := fullChannel.timings;
      t.armWindow < 65536 ∧ t.runGap < 65536 ∧ t.startTimeout < 65536 ∧ t.stopTimeout < 65536 ∧
        t.travelLimit < 65536 ∧ t.jogTime < 65536) ∧
    (fullChannel.consoles.length ≤ 4 ∧ fullChannel.listA.length ≤ 6 ∧ fullChannel.listB.length ≤ 6) ∧
    ((decodePart0 [0xFF, 120, 95]).isSome = true ∧
      decodePart1 (channelRecord 1 fullChannel) = some fullChannel.consoles ∧
      decodePart2 (channelRecord 2 fullChannel) = fullChannel.timings ∧
      decodePart3 (channelRecord 3 fullChannel) = some (fullChannel.listA, fullChannel.listB)) ∧
    (let r : SceneRec := ⟨true, 65535, 255⟩; r.first < 65536 ∧ r.count < 256) ∧
    (let run : List ActionRec := List.replicate 3 ⟨255, 65535, 255, 255⟩;
      ∀ a ∈ run, a.load < 256 ∧ a.level < 65536 ∧ a.fade < 256 ∧ a.delay < 256) ∧
    decodeManager [0xFF, 60, 1] = ⟨true, ⟨60, 1⟩⟩ ∧ (15 : BitVec 4) ≠ 0 ∧ decodeParam [15] = some 15 := by
  refine ⟨⟨by decide, by decide +kernel⟩, ⟨⟨?_, ?_, ?_⟩, by decide +kernel⟩, by decide, by decide +kernel,
    ⟨by decide, by decide +kernel⟩, by decide, by decide, ?_, by decide, by decide, by decide, by decide,
    by decide +kernel⟩
  · intro z d h; cases h; decide
  · intro z h; cases h; decide
  · intro g h; cases h; decide
  · refine ⟨?_, ?_, ?_, ?_⟩ <;> decide +kernel

/-- A RESTART from the segment. -/
theorem witness_ResetAndRestart_zone : managed.takesRequest stationZ ∧ stationZ.port = .zone := by
  refine ⟨?_, ?_⟩ <;> decide +kernel

/-- A valid load, and one that is not and draws nothing, fit at the room's edge and not above it. -/
theorem witness_LevelRequestRising_fits :
    let u := (limited 450 900 plant).lbu
    ((u.loads[7]).cfg.valid = true ∧ (u.loads[95]).demand = 0) ∧ u.fits 95 450 = true ∧ u.fits 95 451 = false := by
  decide +kernel

/-- An IDENTIFY passes every test of R13. -/
theorem witness_RequestsNotCarriedOut_passes :
    let p : List Byte := [1, 7]
    2 ≤ p.length ∧ ¬ wrongCode p ∧ ¬ wrongTable p ∧ ¬ wrongLength p ∧ ¬ wrongIndex p ∧ ¬ wrongValue p := by
  refine ⟨?_, ?_, ?_, ?_, ?_, ?_⟩ <;> decide +kernel

/-- A WRITE with N = 2, one of CHANNEL with N = 3, and one of part 4 with a record (R13; log 14). -/
theorem test_request_tests :
    wrongLength [3, 7] ∧ wrongLength [3, 7, 5] ∧ ¬ wrongLength [3, 7, 5, 4, 0, 9] ∧ wrongIndex [3, 7, 5, 4, 0, 9] := by
  refine ⟨?_, ?_, ?_, ?_⟩ <;> decide +kernel

theorem witness_TrunkFrameStarts :
    (let s := plant; let t := Trunk.a;
      (s.trunk t).rx = none ∧ 5 ≤ s.pool.freeCount) ∧
    (let s := scarce plant; let t := Trunk.b;
      (s.trunk t).rx = none ∧ s.pool.freeCount < 5) ∧
    (let s := receiving; let t := Trunk.a; let cut := longFrame.take 7; let b : Fin 48 := 0;
      (s.trunk t).rx = some ⟨some b⟩ ∧ 7 ≤ cut.length ∧ 22 < frameLen cut) ∧
    (let s := receiving; let t := Trunk.a; let cut := goodFrame.dropLast; let b : Fin 48 := 0;
      (s.trunk t).rx = some ⟨some b⟩ ∧ (cut.length < 7 ∨ frameLen cut ≤ 22 ∧ cut.length < 9 + frameLen cut)) ∧
    (let s := receiving; let t := Trunk.a; let cut : List Byte := []; let b : Fin 48 := 0;
      (s.trunk t).rx = some ⟨some b⟩ ∧ (cut.length < 7 ∨ frameLen cut ≤ 22 ∧ cut.length < 9 + frameLen cut)) ∧
    (let s := deaf; let t := Trunk.a;
      (s.trunk t).rx = some { buf := none }) := by
  refine ⟨?_, ?_, ?_, ?_, ?_, ?_⟩ <;> decide +kernel

theorem witness_TrunkFrameEnds :
    (let s := receiving; let t := Trunk.a; let b : Fin 48 := 0; let bytes := goodFrame;
      (s.trunk t).rx = some ⟨some b⟩ ∧ bytes.length = 9 + frameLen bytes ∧ frameLen bytes ≤ 22 ∧
      checkGood bytes = true ∧ (s.trunk t).link = Link.up ∧ frameKind bytes ≠ 0) ∧
    (let s := receiving; let t := Trunk.a; let b : Fin 48 := 0; let bytes := beatFrame;
      (s.trunk t).rx = some ⟨some b⟩ ∧ bytes.length = 9 + frameLen bytes ∧ frameLen bytes ≤ 22 ∧
      checkGood bytes = true ∧ (s.trunk t).link = Link.up ∧ frameKind bytes = 0) ∧
    (let s := receiving; let t := Trunk.a; let b : Fin 48 := 0; let bytes := longFrame;
      (s.trunk t).rx = some ⟨some b⟩ ∧ 7 ≤ bytes.length ∧ 22 < frameLen bytes) ∧
    (let s := receiving; let t := Trunk.a; let b : Fin 48 := 0; let bytes : List Byte := [1, 2];
      (s.trunk t).rx = some ⟨some b⟩ ∧
      (bytes.length < 7 ∨ frameLen bytes ≤ 22 ∧ bytes.length < 9 + frameLen bytes ∨ frameLen bytes ≤ 22 ∧ bytes.length
        = 9 + frameLen bytes ∧ checkGood bytes = false)) ∧
    (let s := receiving; let t := Trunk.a; let b : Fin 48 := 0; let bytes := goodFrame.dropLast;
      (s.trunk t).rx = some ⟨some b⟩ ∧
      (bytes.length < 7 ∨ frameLen bytes ≤ 22 ∧ bytes.length < 9 + frameLen bytes ∨ frameLen bytes ≤ 22 ∧ bytes.length
        = 9 + frameLen bytes ∧ checkGood bytes = false)) ∧
    (let s := receiving; let t := Trunk.a; let b : Fin 48 := 0; let bytes := badFrame;
      (s.trunk t).rx = some ⟨some b⟩ ∧
      (bytes.length < 7 ∨ frameLen bytes ≤ 22 ∧ bytes.length < 9 + frameLen bytes ∨ frameLen bytes ≤ 22 ∧ bytes.length
        = 9 + frameLen bytes ∧ checkGood bytes = false)) ∧
    (let s := waking; let t := Trunk.a; let b : Fin 48 := 0; let bytes := beatFrame;
      (s.trunk t).rx = some ⟨some b⟩ ∧ bytes.length = 9 + frameLen bytes ∧ frameLen bytes ≤ 22 ∧
      checkGood bytes = true ∧ (s.trunk t).link = Link.down ∧
      (∀ p : Port, Option.map PendingReply.port s.mr.pendingReply = some p → p ≠ t.port)) ∧
    (let s := waking; let t := Trunk.a; let b : Fin 48 := 0; let bytes := goodFrame;
      (s.trunk t).rx = some ⟨some b⟩ ∧ bytes.length = 9 + frameLen bytes ∧ frameLen bytes ≤ 22 ∧
      checkGood bytes = true ∧ (s.trunk t).link = Link.down ∧
      (∀ p : Port, Option.map PendingReply.port s.mr.pendingReply = some p → p ≠ t.port)) ∧
    (let s := wakingReply; let t := Trunk.a; let b : Fin 48 := 0; let bytes := beatFrame;
      (s.trunk t).rx = some ⟨some b⟩ ∧ bytes.length = 9 + frameLen bytes ∧ frameLen bytes ≤ 22 ∧
      checkGood bytes = true ∧ (s.trunk t).link = Link.down ∧
      Option.map PendingReply.port s.mr.pendingReply = some t.port) ∧
    (let s := wakingReply; let t := Trunk.a; let b : Fin 48 := 0; let bytes := goodFrame;
      (s.trunk t).rx = some ⟨some b⟩ ∧ bytes.length = 9 + frameLen bytes ∧ frameLen bytes ≤ 22 ∧
      checkGood bytes = true ∧ (s.trunk t).link = Link.down ∧
      Option.map PendingReply.port s.mr.pendingReply = some t.port) ∧
    (let s := deaf; let t := Trunk.a;
      (s.trunk t).rx = some { buf := none }) ∧
    (let s := plant; let t := Trunk.b;
      (s.trunk t).rx = none) := by
  refine ⟨?_, ?_, ?_, ?_, ?_, ?_, ?_, ?_, ?_, ?_, ?_, ?_⟩ <;> decide +kernel

theorem witness_TrunkTimers :
    (let s := sending []; let t := Trunk.a; let d : Nat := 100;
      (s.trunk t).silence = some d) ∧
    (let s := resting; let t := Trunk.a; let d : Nat := 20;
      (s.trunk t).beat = some d) := by
  refine ⟨?_, ?_⟩ <;> decide +kernel

theorem witness_TrunkTransmissionCompletes :
    (let s := plant; let t := Trunk.a; let bytes : List Byte := [];
      (s.trunk t).tx = some { origin := TxOrigin.beat, bytes := bytes } ∧ (s.trunk t).queue.places = []) ∧
    (let s := behindBeat; let t := Trunk.a; let bytes : List Byte := []; let a : Fin 48 := 1; let cls : Fin 4 := 2;
      let hop : BitVec 4 := 3; let r : Option Byte := none; let n : Nat := 1; let rest : List Place := [];
      (s.trunk t).tx = some { origin := TxOrigin.beat, bytes := bytes } ∧
      (s.trunk t).queue.places = { kind := PlaceKind.buffer a cls hop r, entry := n } :: rest) ∧
    (let s := sending []; let t := Trunk.a; let b : Fin 48 := 0; let bytes := farFrame;
      (s.trunk t).tx = some { origin := TxOrigin.buffer b, bytes := bytes } ∧
      (((s.trunk t).queue.places.filter fun x => !x.holds b) = [])) ∧
    (let s := sending [⟨.buffer 1 2 3 none, 1⟩]; let t := Trunk.a; let b : Fin 48 := 0; let bytes := farFrame;
      let a : Fin 48 := 1; let cls : Fin 4 := 2; let hop : BitVec 4 := 3; let r : Option Byte := none;
      let n : Nat := 1; let rest : List Place := [];
      (s.trunk t).tx = some { origin := TxOrigin.buffer b, bytes := bytes } ∧
      (((s.trunk t).queue.places.filter fun x => !x.holds b) = { kind := PlaceKind.buffer a cls hop r, entry := n } ::
        rest)) := by
  refine ⟨?_, ?_, ?_, ?_⟩ <;> decide +kernel

theorem witness_ZoneReceives :
    (let s := plant;
      s.zp.rx = none ∧ s.zp.sending = false ∧ s.zp.segment = Segment.normal ∧ 5 ≤ s.pool.freeCount) ∧
    (let s := scarce plant;
      s.zp.rx = none ∧ s.zp.sending = false ∧ s.zp.segment = Segment.normal ∧ s.pool.freeCount < 5) ∧
    (let s := faulted;
      s.zp.rx = none ∧ s.zp.sending = false ∧ s.zp.segment = Segment.faulted) ∧
    (let s := attempting ⟨.buffer 0, farFrame, 0⟩ plant;
      s.zp.sending = true ∧ 5 ≤ s.pool.freeCount) ∧
    (let s := scarce (attempting ⟨.buffer 0, farFrame, 0⟩ plant);
      s.zp.sending = true ∧ s.pool.freeCount < 5) ∧
    (let s := attempting ⟨.buffer 0, farFrame, 6⟩ plant; let x : Shifter := ⟨.buffer 0, farFrame, 6⟩;
      s.zp.sending = true ∧ s.zp.shifter = some x ∧ x.attempts + 1 < 8 ∧ 5 ≤ s.pool.freeCount) ∧
    (let s := scarce (attempting ⟨.buffer 0, farFrame, 6⟩ plant); let x : Shifter := ⟨.buffer 0, farFrame, 6⟩;
      s.zp.sending = true ∧ s.zp.shifter = some x ∧ x.attempts + 1 < 8 ∧ s.pool.freeCount < 5) := by
  refine ⟨?_, ?_, ?_, ?_, ?_, ?_, ?_⟩ <;> decide +kernel

theorem witness_ZoneFrameEnds :
    (let s := hearing; let b : Fin 48 := 0; let bytes := goodFrame.dropLast;
      s.zp.rx = some ⟨some b⟩ ∧ (bytes.length < 7 ∨ bytes.length < 9 + frameLen bytes)) ∧
    (let s := hearing; let b : Fin 48 := 0; let bytes := longFrame;
      s.zp.rx = some ⟨some b⟩ ∧ bytes.length = 9 + frameLen bytes ∧ 22 < frameLen bytes) ∧
    (let s := hearing; let b : Fin 48 := 0; let bytes := badFrame;
      s.zp.rx = some ⟨some b⟩ ∧ bytes.length = 9 + frameLen bytes ∧ frameLen bytes ≤ 22 ∧ checkGood bytes = false) ∧
    (let s := hearing; let b : Fin 48 := 0; let bytes := goodFrame;
      s.zp.rx = some ⟨some b⟩ ∧ bytes.length = 9 + frameLen bytes ∧ frameLen bytes ≤ 22 ∧ checkGood bytes = true ∧
      frameKind bytes ≠ 0) ∧
    (let s := hearing; let b : Fin 48 := 0; let bytes := beatFrame;
      s.zp.rx = some ⟨some b⟩ ∧ bytes.length = 9 + frameLen bytes ∧ frameLen bytes ≤ 22 ∧ checkGood bytes = true ∧
      frameKind bytes = 0) ∧
    (let s := deafZone;
      s.zp.rx = some { buf := none }) ∧
    (let s := plant;
      s.zp.rx = none) := by
  refine ⟨?_, ?_, ?_, ?_, ?_, ?_, ?_⟩ <;> decide +kernel

theorem witness_LineIdleBeginsAttempt :
    (let s := retrying;
      s.zp.segment = Segment.normal ∧ s.zp.lineDominant = false ∧ s.zp.sending = false ∧ s.zp.rx = none ∧
      s.zp.shifter.isSome = true) ∧
    (let s := plant;
      s.zp.segment = Segment.normal ∧ s.zp.lineDominant = false ∧ s.zp.sending = false ∧ s.zp.rx = none ∧
      s.zp.shifter = none ∧ s.zp.queue.places = []) ∧
    (let s := zoneQueue [⟨.buffer 0 1 3 none, 0⟩] plant; let b : Fin 48 := 0; let cls : Fin 4 := 1;
      let hop : BitVec 4 := 3; let r : Option Byte := none; let n : Nat := 0; let rest : List Place := [];
      s.zp.segment = Segment.normal ∧ s.zp.lineDominant = false ∧ s.zp.sending = false ∧ s.zp.rx = none ∧
      s.zp.shifter = none ∧ s.zp.queue.places = { kind := PlaceKind.buffer b cls hop r, entry := n } :: rest) ∧
    (let s := startQueued; let c : Fin 4 := 0; let n : Nat := 0; let rest : List Place := [];
      let k : Command := ⟨.startA, 20⟩;
      s.zp.segment = Segment.normal ∧ s.zp.lineDominant = false ∧ s.zp.sending = false ∧ s.zp.rx = none ∧
      s.zp.shifter = none ∧ s.zp.queue.places = { kind := PlaceKind.slot c, entry := n } :: rest ∧
      (s.chan c).command = some k) ∧
    (let s := hearing; let cut := longFrame.take 7; let b : Fin 48 := 0;
      s.zp.lineDominant = false ∧ s.zp.sending = false ∧ s.zp.rx = some ⟨some b⟩ ∧
      (cut.length < 7 ∨ cut.length < 9 + frameLen cut)) ∧
    (let s := hearing; let cut := goodFrame.dropLast; let b : Fin 48 := 0;
      s.zp.lineDominant = false ∧ s.zp.sending = false ∧ s.zp.rx = some ⟨some b⟩ ∧
      (cut.length < 7 ∨ cut.length < 9 + frameLen cut)) ∧
    (let s := deafZone;
      s.zp.lineDominant = false ∧ s.zp.sending = false ∧ s.zp.rx = some { buf := none }) := by
  refine ⟨?_, ?_, ?_, ?_, ?_, ?_, ?_⟩ <;> decide +kernel

theorem witness_LineLevels :
    (let s := plant;
      s.zp.lineDominant = false) ∧
    (let s := dominant;
      s.zp.lineDominant = true) := by
  refine ⟨?_, ?_⟩ <;> decide +kernel

theorem witness_AttemptEnds :
    (let s := attempting ⟨.buffer 0, farFrame, 0⟩ (zoneQueue [⟨.buffer 0 1 3 none, 0⟩] (holding 0 1 .a farFrame
        plant)); let x : Shifter := ⟨.buffer 0, farFrame, 0⟩; let b : Fin 48 := 0;
      s.zp.sending = true ∧ s.zp.shifter = some x ∧ x.origin = ShifterOrigin.buffer b ∧ s.reportsNothing b x.bytes) ∧
    (let s := onLoad 9 (fun l => { l with waiting := none }) (darkening 0);
      let x : Shifter := ⟨.buffer 0, buildFrame 2 1 .device 4 32 4 15 [0, 0, 0, 0], 0⟩; let b : Fin 48 := 0;
      s.zp.sending = true ∧ s.zp.shifter = some x ∧ x.origin = ShifterOrigin.buffer b ∧ s.reportsNothing b x.bytes) ∧
    (let s := darkeningTwo 0; let x : Shifter := ⟨.buffer 0, buildFrame 2 1 .device 4 32 4 15 [0, 0, 0, 0], 0⟩;
      let z1 := fun z : ZonePort => { z with
        sending := false, shifter := none, counters := { z.counters with transmitted := bump z.counters.transmitted } };
      let b : Fin 48 := 0;
      let u := (s.modZone fun z =>
        { z1 z with queue := { z.queue with places := z.queue.places.filter fun y => !y.holds b } }).dropRef b;
      let n : Fin 96 := 9; let c : Fin 4 := 0;
      s.zp.sending = true ∧ s.zp.shifter = some x ∧ x.origin = ShifterOrigin.buffer b ∧ s.reportsMark b x.bytes n c ∧
      u.markOpen n) ∧
    (let s := darkening 0; let x : Shifter := ⟨.buffer 0, buildFrame 2 1 .device 4 32 4 15 [0, 0, 0, 0], 0⟩;
      let z1 := fun z : ZonePort => { z with
        sending := false, shifter := none, counters := { z.counters with transmitted := bump z.counters.transmitted } };
      let b : Fin 48 := 0;
      let u := (s.modZone fun z =>
        { z1 z with queue := { z.queue with places := z.queue.places.filter fun y => !y.holds b } }).dropRef b;
      let n : Fin 96 := 9; let c : Fin 4 := 0;
      s.zp.sending = true ∧ s.zp.shifter = some x ∧ x.origin = ShifterOrigin.buffer b ∧ s.reportsMark b x.bytes n c ∧
      u.markOpen n) ∧
    (let s := attempting ⟨.slot 0 .stop, [], 0⟩ plant; let x : Shifter := ⟨.slot 0 .stop, [], 0⟩; let c : Fin 4 := 0;
      let code : DriveCode := .stop;
      s.zp.sending = true ∧ s.zp.shifter = some x ∧ x.origin = ShifterOrigin.slot c code ∧
      (code = DriveCode.stop ∨ code = DriveCode.halt ∨ (s.chan c).state ≠ ChanState.starting ∨ (s.chan c).phase ≠
        Phase.sent)) ∧
    (let s := attempting ⟨.slot 0 .startA, [], 0⟩ (motion .stopping .none .run plant);
      let x : Shifter := ⟨.slot 0 .startA, [], 0⟩; let c : Fin 4 := 0; let code : DriveCode := .startA;
      s.zp.sending = true ∧ s.zp.shifter = some x ∧ x.origin = ShifterOrigin.slot c code ∧
      (code = DriveCode.stop ∨ code = DriveCode.halt ∨ (s.chan c).state ≠ ChanState.starting ∨ (s.chan c).phase ≠
        Phase.sent)) ∧
    (let s := startOnLine; let x : Shifter := ⟨.slot 0 .startA, [], 0⟩; let c : Fin 4 := 0;
      let code : DriveCode := .startA; let n := (s.chan c).cfg.motorLoad;
      s.zp.sending = true ∧ s.zp.shifter = some x ∧ x.origin = ShifterOrigin.slot c code ∧
      (code = DriveCode.startA ∨ code = DriveCode.startB) ∧ (s.chan c).state = ChanState.starting ∧
      (s.chan c).phase = Phase.sent ∧ s.lbu.loads[n.val].state = LoadState.inrush ∧
      s.lbu.loads[n.val].inrushTimer = InrushTimer.waiting) ∧
    (let s := attempting ⟨.slot 0 .startA, [], 0⟩ (motion .starting .sent .run plant);
      let x : Shifter := ⟨.slot 0 .startA, [], 0⟩; let c : Fin 4 := 0; let code : DriveCode := .startA;
      let n := (s.chan c).cfg.motorLoad;
      s.zp.sending = true ∧ s.zp.shifter = some x ∧ x.origin = ShifterOrigin.slot c code ∧
      (code = DriveCode.startA ∨ code = DriveCode.startB) ∧ (s.chan c).state = ChanState.starting ∧
      (s.chan c).phase = Phase.sent ∧
      (s.lbu.loads[n.val].state ≠ LoadState.inrush ∨ s.lbu.loads[n.val].inrushTimer ≠ InrushTimer.waiting)) ∧
    (let s := lastTry; let x : Shifter := ⟨.buffer 0, farFrame, 7⟩; let b : Fin 48 := 0;
      s.zp.sending = true ∧ s.zp.shifter = some x ∧ x.attempts = 7 ∧ x.origin = ShifterOrigin.buffer b ∧
      (s.buf b).free = false ∧ s.reportsNothing b x.bytes) ∧
    (let s := darkeningTwo 7; let x : Shifter := ⟨.buffer 0, buildFrame 2 1 .device 4 32 4 15 [0, 0, 0, 0], 7⟩;
      let r := s.takeReception .zone;
      let z1 := fun z : ZonePort => { z with
        rx := some r.1, sending := false, shifter := none
        counters := { z.counters with
          noBuffer := if r.1.buf = none then bump z.counters.noBuffer else z.counters.noBuffer
          txFailed := bump z.counters.txFailed } };
      let b : Fin 48 := 0;
      let u := (r.2.modZone fun z =>
        { z1 z with queue := { z.queue with places := z.queue.places.filter fun y => !y.holds b } }).dropRef b;
      let n : Fin 96 := 9; let c : Fin 4 := 0;
      s.zp.sending = true ∧ s.zp.shifter = some x ∧ x.attempts = 7 ∧ x.origin = ShifterOrigin.buffer b ∧
      (s.buf b).free = false ∧ s.reportsMark b x.bytes n c ∧ u.markOpen n) ∧
    (let s := darkening 7; let x : Shifter := ⟨.buffer 0, buildFrame 2 1 .device 4 32 4 15 [0, 0, 0, 0], 7⟩;
      let r := s.takeReception .zone;
      let z1 := fun z : ZonePort => { z with
        rx := some r.1, sending := false, shifter := none
        counters := { z.counters with
          noBuffer := if r.1.buf = none then bump z.counters.noBuffer else z.counters.noBuffer
          txFailed := bump z.counters.txFailed } };
      let b : Fin 48 := 0;
      let u := (r.2.modZone fun z =>
        { z1 z with queue := { z.queue with places := z.queue.places.filter fun y => !y.holds b } }).dropRef b;
      let n : Fin 96 := 9; let c : Fin 4 := 0;
      s.zp.sending = true ∧ s.zp.shifter = some x ∧ x.attempts = 7 ∧ x.origin = ShifterOrigin.buffer b ∧
      (s.buf b).free = false ∧ s.reportsMark b x.bytes n c ∧ u.markOpen n) ∧
    (let s := scarce (attempting ⟨.slot 0 .stop, [], 7⟩ plant); let x : Shifter := ⟨.slot 0 .stop, [], 7⟩;
      let c : Fin 4 := 0; let code : DriveCode := .stop;
      s.zp.sending = true ∧ s.zp.shifter = some x ∧ x.attempts = 7 ∧ x.origin = ShifterOrigin.slot c code ∧
      (code = DriveCode.stop ∨ code = DriveCode.halt ∨ (s.chan c).state ≠ ChanState.starting ∨ (s.chan c).phase ≠
        Phase.sent)) ∧
    (let s := attempting ⟨.slot 0 .startB, [], 7⟩ (motion .starting .sent .run plant);
      let x : Shifter := ⟨.slot 0 .startB, [], 7⟩; let r := s.takeReception .zone;
      let z1 := fun z : ZonePort => { z with
        rx := some r.1, sending := false, shifter := none
        counters := { z.counters with
          noBuffer := if r.1.buf = none then bump z.counters.noBuffer else z.counters.noBuffer
          txFailed := bump z.counters.txFailed } };
      let failed := fun u : State =>
        u.noting .txFailed 2 ((byteAt x.bytes 0).toNat * 256 + (byteAt x.bytes 2).toNat);
      let c : Fin 4 := 0; let code : DriveCode := .startB; let u := failed (r.2.modZone z1);
      let v := u.faulting c .noStart;
      s.zp.sending = true ∧ s.zp.shifter = some x ∧ x.attempts = 7 ∧ x.origin = ShifterOrigin.slot c code ∧
      (code = DriveCode.startA ∨ code = DriveCode.startB) ∧ (s.chan c).state = ChanState.starting ∧
      (s.chan c).phase = Phase.sent ∧ u.faultOpen c FaultCause.noStart ∧ v.shedFree) ∧
    (let s := attempting ⟨.slot 0 .startB, [], 7⟩ (manyShed (motion .starting .sent .run plant));
      let x : Shifter := ⟨.slot 0 .startB, [], 7⟩; let r := s.takeReception .zone;
      let z1 := fun z : ZonePort => { z with
        rx := some r.1, sending := false, shifter := none
        counters := { z.counters with
          noBuffer := if r.1.buf = none then bump z.counters.noBuffer else z.counters.noBuffer
          txFailed := bump z.counters.txFailed } };
      let failed := fun u : State =>
        u.noting .txFailed 2 ((byteAt x.bytes 0).toNat * 256 + (byteAt x.bytes 2).toNat);
      let c : Fin 4 := 0; let code : DriveCode := .startB; let u := failed (r.2.modZone z1);
      let v := u.faulting c .noStart;
      s.zp.sending = true ∧ s.zp.shifter = some x ∧ x.attempts = 7 ∧ x.origin = ShifterOrigin.slot c code ∧
      (code = DriveCode.startA ∨ code = DriveCode.startB) ∧ (s.chan c).state = ChanState.starting ∧
      (s.chan c).phase = Phase.sent ∧ u.faultOpen c FaultCause.noStart ∧ v.shedFree) := by
  refine ⟨⟨?_, ?_, ?_, ?_⟩, ⟨?_, ?_, ?_, ?_⟩, ⟨?_, ?_, ?_, ?_, ?_⟩, ⟨?_, ?_, ?_, ?_, ?_⟩, ⟨?_, ?_, ?_, ?_⟩, ⟨?_, ?_,
    ?_, ?_⟩, ⟨?_, ?_, ?_, ?_, ?_, ?_, ?_, ?_⟩, ⟨?_, ?_, ?_, ?_, ?_, ?_, ?_⟩, ⟨?_, ?_, ?_, ?_, ?_, ?_⟩, ⟨?_, ?_, ?_,
    ?_, ?_, ?_, ?_⟩, ⟨?_, ?_, ?_, ?_, ?_, ?_, ?_⟩, ⟨?_, ?_, ?_, ?_, ?_⟩, ⟨?_, ?_, ?_, ?_, ?_, ?_, ?_, ?_, ?_⟩, ⟨?_,
    ?_, ?_, ?_, ?_, ?_, ?_, ?_, ?_⟩⟩ <;> decide +kernel

theorem witness_LevelTries :
    (let s := risen plant; let n : Nat := 0;
      s.pool.riseLbu = n + 1) ∧
    (let s := plant;
      (∀ m : Fin 96, s.lbu.loads[m.val].due = false)) ∧
    (let s := owing 7 unassigned; let n : Fin 96 := 7;
      s.lbu.loads[n.val].due = true ∧ (∀ m : Fin 96, m < n → s.lbu.loads[m.val].due = false) ∧
      (s.mr.ownZone = 0 ∨ s.pool.freeCount < 5 ∨ s.zp.segment = Segment.faulted ∨ 44 ≤ s.zp.queue.bufferPlaces)) ∧
    (let s := owing 7 (scarce plant); let n : Fin 96 := 7;
      s.lbu.loads[n.val].due = true ∧ (∀ m : Fin 96, m < n → s.lbu.loads[m.val].due = false) ∧
      (s.mr.ownZone = 0 ∨ s.pool.freeCount < 5 ∨ s.zp.segment = Segment.faulted ∨ 44 ≤ s.zp.queue.bufferPlaces)) ∧
    (let s := owing 7 faulted; let n : Fin 96 := 7;
      s.lbu.loads[n.val].due = true ∧ (∀ m : Fin 96, m < n → s.lbu.loads[m.val].due = false) ∧
      (s.mr.ownZone = 0 ∨ s.pool.freeCount < 5 ∨ s.zp.segment = Segment.faulted ∨ 44 ≤ s.zp.queue.bufferPlaces)) ∧
    (let s := owing 7 plant; let n : Fin 96 := 7;
      s.lbu.loads[n.val].due = true ∧ (∀ m : Fin 96, m < n → s.lbu.loads[m.val].due = false) ∧ s.mr.ownZone ≠ 0 ∧
      5 ≤ s.pool.freeCount ∧ s.zp.segment = Segment.normal ∧ s.zp.queue.bufferPlaces < 44 ∧ s.zp.ready) ∧
    (let s := owing 7 (owing 9 plant); let n : Fin 96 := 7;
      s.lbu.loads[n.val].due = true ∧ (∀ m : Fin 96, m < n → s.lbu.loads[m.val].due = false) ∧ s.mr.ownZone ≠ 0 ∧
      5 ≤ s.pool.freeCount ∧ s.zp.segment = Segment.normal ∧ s.zp.queue.bufferPlaces < 44 ∧ s.zp.ready) ∧
    (let s := owing 7 (owing 9 (freeLine plant)); let n : Fin 96 := 7;
      s.lbu.loads[n.val].due = true ∧ (∀ m : Fin 96, m < n → s.lbu.loads[m.val].due = false) ∧ s.mr.ownZone ≠ 0 ∧
      5 ≤ s.pool.freeCount ∧ s.zp.segment = Segment.normal ∧ s.zp.queue.bufferPlaces < 44 ∧ s.zp.ready) := by
  refine ⟨?_, ?_, ?_, ?_, ?_, ?_, ?_, ?_⟩ <;> decide +kernel

theorem witness_ClassifyConsumes :
    (let s := held .a (buildFrame 2 1 .device 4 5 7 0 []) plant; let h : Held := ⟨0, .a⟩; let rest : List Held := [];
      let f := (s.buf h.buf).bytes;
      s.fe.hold = h :: rest ∧ h.port ≠ Port.zone ∧
      (frameHop f = 0 ∨ s.mr.ownZone ≠ 0 ∧ (frameOrigin f).zone = s.mr.ownZone)) ∧
    (let s := held .zone (buildFrame 1 1 .device 4 0 4 3 [7, 1, 244, 0]) plant; let h : Held := ⟨0, .zone⟩;
      let rest : List Held := []; let f := (s.buf h.buf).bytes;
      let src : Source := ⟨h.port, frameHop f, frameOrigin f⟩;
      s.fe.hold = h :: rest ∧ discarded s src = false ∧ (s.mr.ownZone ≠ 0 ∨ frameKind f = 7) ∧
      frameType f = DestType.device ∧ byteAt f 1 = s.mr.ownZone ∧ byteAt f 2 = 0 ∧ frameKind f ≠ 4 ∧
      (¬(frameKind f = 7 ∧ (framePayload f).length = 2 ∧ byteAt (framePayload f) 0 = 10 ∧ s.takesRequest src))) ∧
    (let s := held .a restartFrame managed; let h : Held := ⟨0, .a⟩; let rest : List Held := [];
      let f := (s.buf h.buf).bytes; let src : Source := ⟨h.port, frameHop f, frameOrigin f⟩;
      s.fe.hold = h :: rest ∧ discarded s src = false ∧ (s.mr.ownZone ≠ 0 ∨ frameKind f = 7) ∧
      frameType f = DestType.device ∧ byteAt f 1 = s.mr.ownZone ∧ byteAt f 2 = 0 ∧ frameKind f ≠ 4 ∧
      (frameKind f = 7 ∧ (framePayload f).length = 2 ∧ byteAt (framePayload f) 0 = 10 ∧ s.takesRequest src)) ∧
    (let s := plant; let kind : Fin 16 := 2; let src := console; let p : List Byte := [];
      s.hears src ∧
      (kind ≠ 1 ∧ kind ≠ 3 ∧ kind ≠ 5 ∧ kind ≠ 6 ∧ kind ≠ 7 ∨ kind = 1 ∧ (p.length ≠ 4 ∨ 95 < (byteAt p 0).toNat) ∨
        kind = 3 ∧ (p.length ≠ 1 ∨ 127 < (byteAt p 0).toNat) ∨ kind = 5 ∧ (p.length ≠ 2 ∨ 3 < (byteAt p 0).toNat ∨
        byteAt p 1 = 0 ∨ 9 < (byteAt p 1).toNat) ∨ kind = 6 ∧ (p.length ≠ 1 ∨ (byteAt p 0).toNat < 8 ∨ 12 < (byteAt p
        0).toNat))) ∧
    (let s := plant; let kind : Fin 16 := 1; let src := console; let p : List Byte := [5, 1, 1];
      s.hears src ∧
      (kind ≠ 1 ∧ kind ≠ 3 ∧ kind ≠ 5 ∧ kind ≠ 6 ∧ kind ≠ 7 ∨ kind = 1 ∧ (p.length ≠ 4 ∨ 95 < (byteAt p 0).toNat) ∨
        kind = 3 ∧ (p.length ≠ 1 ∨ 127 < (byteAt p 0).toNat) ∨ kind = 5 ∧ (p.length ≠ 2 ∨ 3 < (byteAt p 0).toNat ∨
        byteAt p 1 = 0 ∨ 9 < (byteAt p 1).toNat) ∨ kind = 6 ∧ (p.length ≠ 1 ∨ (byteAt p 0).toNat < 8 ∨ 12 < (byteAt p
        0).toNat))) ∧
    (let s := plant; let kind : Fin 16 := 1; let src := console; let p : List Byte := [96, 1, 1, 1];
      s.hears src ∧
      (kind ≠ 1 ∧ kind ≠ 3 ∧ kind ≠ 5 ∧ kind ≠ 6 ∧ kind ≠ 7 ∨ kind = 1 ∧ (p.length ≠ 4 ∨ 95 < (byteAt p 0).toNat) ∨
        kind = 3 ∧ (p.length ≠ 1 ∨ 127 < (byteAt p 0).toNat) ∨ kind = 5 ∧ (p.length ≠ 2 ∨ 3 < (byteAt p 0).toNat ∨
        byteAt p 1 = 0 ∨ 9 < (byteAt p 1).toNat) ∨ kind = 6 ∧ (p.length ≠ 1 ∨ (byteAt p 0).toNat < 8 ∨ 12 < (byteAt p
        0).toNat))) ∧
    (let s := plant; let kind : Fin 16 := 3; let src := console; let p : List Byte := [128];
      s.hears src ∧
      (kind ≠ 1 ∧ kind ≠ 3 ∧ kind ≠ 5 ∧ kind ≠ 6 ∧ kind ≠ 7 ∨ kind = 1 ∧ (p.length ≠ 4 ∨ 95 < (byteAt p 0).toNat) ∨
        kind = 3 ∧ (p.length ≠ 1 ∨ 127 < (byteAt p 0).toNat) ∨ kind = 5 ∧ (p.length ≠ 2 ∨ 3 < (byteAt p 0).toNat ∨
        byteAt p 1 = 0 ∨ 9 < (byteAt p 1).toNat) ∨ kind = 6 ∧ (p.length ≠ 1 ∨ (byteAt p 0).toNat < 8 ∨ 12 < (byteAt p
        0).toNat))) ∧
    (let s := plant; let kind : Fin 16 := 3; let src := console; let p : List Byte := [1, 1];
      s.hears src ∧
      (kind ≠ 1 ∧ kind ≠ 3 ∧ kind ≠ 5 ∧ kind ≠ 6 ∧ kind ≠ 7 ∨ kind = 1 ∧ (p.length ≠ 4 ∨ 95 < (byteAt p 0).toNat) ∨
        kind = 3 ∧ (p.length ≠ 1 ∨ 127 < (byteAt p 0).toNat) ∨ kind = 5 ∧ (p.length ≠ 2 ∨ 3 < (byteAt p 0).toNat ∨
        byteAt p 1 = 0 ∨ 9 < (byteAt p 1).toNat) ∨ kind = 6 ∧ (p.length ≠ 1 ∨ (byteAt p 0).toNat < 8 ∨ 12 < (byteAt p
        0).toNat))) ∧
    (let s := plant; let kind : Fin 16 := 5; let src := console; let p : List Byte := [0, 0];
      s.hears src ∧
      (kind ≠ 1 ∧ kind ≠ 3 ∧ kind ≠ 5 ∧ kind ≠ 6 ∧ kind ≠ 7 ∨ kind = 1 ∧ (p.length ≠ 4 ∨ 95 < (byteAt p 0).toNat) ∨
        kind = 3 ∧ (p.length ≠ 1 ∨ 127 < (byteAt p 0).toNat) ∨ kind = 5 ∧ (p.length ≠ 2 ∨ 3 < (byteAt p 0).toNat ∨
        byteAt p 1 = 0 ∨ 9 < (byteAt p 1).toNat) ∨ kind = 6 ∧ (p.length ≠ 1 ∨ (byteAt p 0).toNat < 8 ∨ 12 < (byteAt p
        0).toNat))) ∧
    (let s := plant; let kind : Fin 16 := 5; let src := console; let p : List Byte := [4, 1];
      s.hears src ∧
      (kind ≠ 1 ∧ kind ≠ 3 ∧ kind ≠ 5 ∧ kind ≠ 6 ∧ kind ≠ 7 ∨ kind = 1 ∧ (p.length ≠ 4 ∨ 95 < (byteAt p 0).toNat) ∨
        kind = 3 ∧ (p.length ≠ 1 ∨ 127 < (byteAt p 0).toNat) ∨ kind = 5 ∧ (p.length ≠ 2 ∨ 3 < (byteAt p 0).toNat ∨
        byteAt p 1 = 0 ∨ 9 < (byteAt p 1).toNat) ∨ kind = 6 ∧ (p.length ≠ 1 ∨ (byteAt p 0).toNat < 8 ∨ 12 < (byteAt p
        0).toNat))) ∧
    (let s := plant; let kind : Fin 16 := 5; let src := console; let p : List Byte := [0, 10];
      s.hears src ∧
      (kind ≠ 1 ∧ kind ≠ 3 ∧ kind ≠ 5 ∧ kind ≠ 6 ∧ kind ≠ 7 ∨ kind = 1 ∧ (p.length ≠ 4 ∨ 95 < (byteAt p 0).toNat) ∨
        kind = 3 ∧ (p.length ≠ 1 ∨ 127 < (byteAt p 0).toNat) ∨ kind = 5 ∧ (p.length ≠ 2 ∨ 3 < (byteAt p 0).toNat ∨
        byteAt p 1 = 0 ∨ 9 < (byteAt p 1).toNat) ∨ kind = 6 ∧ (p.length ≠ 1 ∨ (byteAt p 0).toNat < 8 ∨ 12 < (byteAt p
        0).toNat))) ∧
    (let s := plant; let kind : Fin 16 := 5; let src := console; let p : List Byte := [0];
      s.hears src ∧
      (kind ≠ 1 ∧ kind ≠ 3 ∧ kind ≠ 5 ∧ kind ≠ 6 ∧ kind ≠ 7 ∨ kind = 1 ∧ (p.length ≠ 4 ∨ 95 < (byteAt p 0).toNat) ∨
        kind = 3 ∧ (p.length ≠ 1 ∨ 127 < (byteAt p 0).toNat) ∨ kind = 5 ∧ (p.length ≠ 2 ∨ 3 < (byteAt p 0).toNat ∨
        byteAt p 1 = 0 ∨ 9 < (byteAt p 1).toNat) ∨ kind = 6 ∧ (p.length ≠ 1 ∨ (byteAt p 0).toNat < 8 ∨ 12 < (byteAt p
        0).toNat))) ∧
    (let s := plant; let kind : Fin 16 := 6; let src := controller; let p : List Byte := [7];
      s.hears src ∧
      (kind ≠ 1 ∧ kind ≠ 3 ∧ kind ≠ 5 ∧ kind ≠ 6 ∧ kind ≠ 7 ∨ kind = 1 ∧ (p.length ≠ 4 ∨ 95 < (byteAt p 0).toNat) ∨
        kind = 3 ∧ (p.length ≠ 1 ∨ 127 < (byteAt p 0).toNat) ∨ kind = 5 ∧ (p.length ≠ 2 ∨ 3 < (byteAt p 0).toNat ∨
        byteAt p 1 = 0 ∨ 9 < (byteAt p 1).toNat) ∨ kind = 6 ∧ (p.length ≠ 1 ∨ (byteAt p 0).toNat < 8 ∨ 12 < (byteAt p
        0).toNat))) ∧
    (let s := plant; let kind : Fin 16 := 6; let src := controller; let p : List Byte := [13];
      s.hears src ∧
      (kind ≠ 1 ∧ kind ≠ 3 ∧ kind ≠ 5 ∧ kind ≠ 6 ∧ kind ≠ 7 ∨ kind = 1 ∧ (p.length ≠ 4 ∨ 95 < (byteAt p 0).toNat) ∨
        kind = 3 ∧ (p.length ≠ 1 ∨ 127 < (byteAt p 0).toNat) ∨ kind = 5 ∧ (p.length ≠ 2 ∨ 3 < (byteAt p 0).toNat ∨
        byteAt p 1 = 0 ∨ 9 < (byteAt p 1).toNat) ∨ kind = 6 ∧ (p.length ≠ 1 ∨ (byteAt p 0).toNat < 8 ∨ 12 < (byteAt p
        0).toNat))) ∧
    (let s := plant; let kind : Fin 16 := 6; let src := controller; let p : List Byte := [8, 8];
      s.hears src ∧
      (kind ≠ 1 ∧ kind ≠ 3 ∧ kind ≠ 5 ∧ kind ≠ 6 ∧ kind ≠ 7 ∨ kind = 1 ∧ (p.length ≠ 4 ∨ 95 < (byteAt p 0).toNat) ∨
        kind = 3 ∧ (p.length ≠ 1 ∨ 127 < (byteAt p 0).toNat) ∨ kind = 5 ∧ (p.length ≠ 2 ∨ 3 < (byteAt p 0).toNat ∨
        byteAt p 1 = 0 ∨ 9 < (byteAt p 1).toNat) ∨ kind = 6 ∧ (p.length ≠ 1 ∨ (byteAt p 0).toNat < 8 ∨ 12 < (byteAt p
        0).toNat))) ∧
    (let s := plant; let kind : Fin 16 := 0; let src := controller; let p : List Byte := [8, 8];
      s.hears src ∧
      (kind ≠ 1 ∧ kind ≠ 3 ∧ kind ≠ 5 ∧ kind ≠ 6 ∧ kind ≠ 7 ∨ kind = 1 ∧ (p.length ≠ 4 ∨ 95 < (byteAt p 0).toNat) ∨
        kind = 3 ∧ (p.length ≠ 1 ∨ 127 < (byteAt p 0).toNat) ∨ kind = 5 ∧ (p.length ≠ 2 ∨ 3 < (byteAt p 0).toNat ∨
        byteAt p 1 = 0 ∨ 9 < (byteAt p 1).toNat) ∨ kind = 6 ∧ (p.length ≠ 1 ∨ (byteAt p 0).toNat < 8 ∨ 12 < (byteAt p
        0).toNat))) ∧
    (let s := plant; let kind : Fin 16 := 15; let src := controller; let p : List Byte := [8, 8];
      s.hears src ∧
      (kind ≠ 1 ∧ kind ≠ 3 ∧ kind ≠ 5 ∧ kind ≠ 6 ∧ kind ≠ 7 ∨ kind = 1 ∧ (p.length ≠ 4 ∨ 95 < (byteAt p 0).toNat) ∨
        kind = 3 ∧ (p.length ≠ 1 ∨ 127 < (byteAt p 0).toNat) ∨ kind = 5 ∧ (p.length ≠ 2 ∨ 3 < (byteAt p 0).toNat ∨
        byteAt p 1 = 0 ∨ 9 < (byteAt p 1).toNat) ∨ kind = 6 ∧ (p.length ≠ 1 ∨ (byteAt p 0).toNat < 8 ∨ 12 < (byteAt p
        0).toNat))) ∧
    (let s := plant; let kind : Fin 16 := 1; let src : Source := ⟨.a, 0, ⟨60, 1⟩⟩;
      (discarded s src = true ∨ s.mr.ownZone = 0 ∧ kind ≠ 7)) ∧
    (let s := unassigned; let kind : Fin 16 := 1; let src := console;
      (discarded s src = true ∨ s.mr.ownZone = 0 ∧ kind ≠ 7)) ∧
    (let s := held .a assignFrame unassigned; let h : Held := ⟨0, .a⟩; let rest : List Held := [];
      let f := (s.buf h.buf).bytes; let src : Source := ⟨h.port, frameHop f, frameOrigin f⟩;
      s.fe.hold = h :: rest ∧ discarded s src = false ∧ (s.mr.ownZone ≠ 0 ∨ frameKind f = 7) ∧
      frameType f = DestType.device ∧ byteAt f 1 = s.mr.ownZone ∧ byteAt f 2 = 0 ∧ frameKind f ≠ 4 ∧
      (¬(frameKind f = 7 ∧ (framePayload f).length = 2 ∧ byteAt (framePayload f) 0 = 10 ∧ s.takesRequest src))) ∧
    (let s := held .zone assignFrame (owing 7 unassigned); let h : Held := ⟨0, .zone⟩; let rest : List Held := [];
      let f := (s.buf h.buf).bytes; let src : Source := ⟨h.port, frameHop f, frameOrigin f⟩;
      s.fe.hold = h :: rest ∧ discarded s src = false ∧ (s.mr.ownZone ≠ 0 ∨ frameKind f = 7) ∧
      frameType f = DestType.device ∧ byteAt f 1 = s.mr.ownZone ∧ byteAt f 2 = 0 ∧ frameKind f ≠ 4 ∧
      (¬(frameKind f = 7 ∧ (framePayload f).length = 2 ∧ byteAt (framePayload f) 0 = 10 ∧ s.takesRequest src))) ∧
    (let s := held .b restartZero unassigned; let h : Held := ⟨0, .b⟩; let rest : List Held := [];
      let f := (s.buf h.buf).bytes; let src : Source := ⟨h.port, frameHop f, frameOrigin f⟩;
      s.fe.hold = h :: rest ∧ discarded s src = false ∧ (s.mr.ownZone ≠ 0 ∨ frameKind f = 7) ∧
      frameType f = DestType.device ∧ byteAt f 1 = s.mr.ownZone ∧ byteAt f 2 = 0 ∧ frameKind f ≠ 4 ∧
      (frameKind f = 7 ∧ (framePayload f).length = 2 ∧ byteAt (framePayload f) 0 = 10 ∧ s.takesRequest src)) := by
  refine ⟨?_, ?_, ?_, ?_, ?_, ?_, ?_, ?_, ?_, ?_, ?_, ?_, ?_, ?_, ?_, ?_, ?_, ?_, ?_, ?_, ?_, ?_⟩ <;> decide +kernel

theorem witness_SegmentFaultsAndRecovers :
    (let s := stuck; let d : Nat := 100; let u := s.segmentEmptied;
      let base : State := { u with
        now := max s.now d
        zp := { u.zp with
          segment := .faulted, stuck := none
          recovery := if s.zp.lineDominant then none else some (max s.now d + 500) } };
      let v := (base.faultingAll (fun c => (s.chan c).state.active) .segment).noting .segmentFault 2 0;
      let released := decide (∃ c : Fin 4, s.drives c = true);
      s.zp.stuck = some d ∧ (released = true → v.shedFree)) ∧
    (let s := stuckLine plant; let d : Nat := 100; let u := s.segmentEmptied;
      let base : State := { u with
        now := max s.now d
        zp := { u.zp with
          segment := .faulted, stuck := none
          recovery := if s.zp.lineDominant then none else some (max s.now d + 500) } };
      let v := (base.faultingAll (fun c => (s.chan c).state.active) .segment).noting .segmentFault 2 0;
      let released := decide (∃ c : Fin 4, s.drives c = true);
      s.zp.stuck = some d ∧ (released = true → v.shedFree)) ∧
    (let s := stuckLine deafZone; let d : Nat := 100; let u := s.segmentEmptied;
      let base : State := { u with
        now := max s.now d
        zp := { u.zp with
          segment := .faulted, stuck := none
          recovery := if s.zp.lineDominant then none else some (max s.now d + 500) } };
      let v := (base.faultingAll (fun c => (s.chan c).state.active) .segment).noting .segmentFault 2 0;
      let released := decide (∃ c : Fin 4, s.drives c = true);
      s.zp.stuck = some d ∧ (released = true → v.shedFree)) ∧
    (let s := stuckLine (rival (motion .running .none .run plant)); let d : Nat := 100;
      s.zp.stuck = some d) ∧
    (let s := recovering; let d : Nat := 500; let u := s.segmentEmptied;
      let base : State := { u with
        now := max s.now d
        zp := { u.zp with
          segment := .normal, recovery := none
          stuck := if s.zp.lineDominant then some (max s.now d + 100) else none } };
      let v := (base.faultingAll (fun c => (s.chan c).state.active) .segment).levelsDue;
      let released := decide (∃ c : Fin 4, s.drives c = true);
      s.zp.recovery = some d ∧ (released = true → v.shedFree)) ∧
    (let s := recovers (motion .running .none .run plant); let d : Nat := 500; let u := s.segmentEmptied;
      let base : State := { u with
        now := max s.now d
        zp := { u.zp with
          segment := .normal, recovery := none
          stuck := if s.zp.lineDominant then some (max s.now d + 100) else none } };
      let v := (base.faultingAll (fun c => (s.chan c).state.active) .segment).levelsDue;
      let released := decide (∃ c : Fin 4, s.drives c = true);
      s.zp.recovery = some d ∧ (released = true → v.shedFree)) ∧
    (let s := recovers (manyShed (second .stopping .none (motion .running .none .run plant))); let d : Nat := 500;
      let u := s.segmentEmptied;
      let base : State := { u with
        now := max s.now d
        zp := { u.zp with
          segment := .normal, recovery := none
          stuck := if s.zp.lineDominant then some (max s.now d + 100) else none } };
      let v := (base.faultingAll (fun c => (s.chan c).state.active) .segment).levelsDue;
      let released := decide (∃ c : Fin 4, s.drives c = true);
      s.zp.recovery = some d ∧ (released = true → v.shedFree)) ∧
    (let s := recovers (rival (motion .running .none .run plant)); let d : Nat := 500;
      s.zp.recovery = some d) := by
  refine ⟨⟨?_, ?_⟩, ⟨?_, ?_⟩, ⟨?_, ?_⟩, ?_, ⟨?_, ?_⟩, ⟨?_, ?_⟩, ⟨?_, ?_⟩, ?_⟩ <;> decide +kernel

theorem witness_NoticeTries :
    (let s := risen plant; let n : Nat := 0;
      s.pool.riseMr = n + 1) ∧
    (let s := plant;
      (s.mr.notices = [] ∨ s.mr.waitUp = true)) ∧
    (let s := waitingUp;
      (s.mr.notices = [] ∨ s.mr.waitUp = true)) ∧
    (let s := marked 1 (noticed managed); let n : Notice := ⟨.shed, 7, 500, false⟩; let rest : List Notice := [];
      s.mr.notices = n :: rest ∧ rest.length ≤ 15 ∧ s.mr.waitUp = false ∧ s.mr.headMark ≠ 0 ∧
      (∀ i : Fin 2, s.mr.headMark ≤ i.val → s.mr.managers[i.val].valid = false)) ∧
    (let s := marked 2 (twoNotices (twoManagers plant)); let n : Notice := ⟨.shed, 7, 500, false⟩;
      let rest : List Notice := [⟨.overcommit, 4, 65535, true⟩];
      s.mr.notices = n :: rest ∧ rest.length ≤ 15 ∧ s.mr.waitUp = false ∧ s.mr.headMark ≠ 0 ∧
      (∀ i : Fin 2, s.mr.headMark ≤ i.val → s.mr.managers[i.val].valid = false)) ∧
    (let s := noticed (empty plant); let n : Notice := ⟨.shed, 7, 500, false⟩; let rest : List Notice := [];
      s.mr.notices = n :: rest ∧ rest.length ≤ 15 ∧ s.mr.waitUp = false ∧
      (s.mr.headMark = 0 ∧ ∀ i : Fin 2, s.mr.managers[i.val].valid = false) ∧ s.tpa.ready ∧ s.tpb.ready ∧
      s.pool.freeCount = 0) ∧
    (let s := noticed (cutOff plant); let n : Notice := ⟨.shed, 7, 500, false⟩; let rest : List Notice := [];
      s.mr.notices = n :: rest ∧ rest.length ≤ 15 ∧ s.mr.waitUp = false ∧
      (s.mr.headMark = 0 ∧ ∀ i : Fin 2, s.mr.managers[i.val].valid = false) ∧ s.tpa.ready ∧ s.tpb.ready ∧
      1 ≤ s.pool.freeCount ∧ s.tpa.link = Link.down ∧ s.tpb.link = Link.down) ∧
    (let s := noticed plant; let n : Notice := ⟨.shed, 7, 500, false⟩; let rest : List Notice := [];
      s.mr.notices = n :: rest ∧ rest.length ≤ 15 ∧ s.mr.waitUp = false ∧
      (s.mr.headMark = 0 ∧ ∀ i : Fin 2, s.mr.managers[i.val].valid = false) ∧ s.tpa.ready ∧ s.tpb.ready ∧
      1 ≤ s.pool.freeCount ∧ (s.tpa.link = Link.up ∨ s.tpb.link = Link.up)) ∧
    (let s := noticed (restLinks plant); let n : Notice := ⟨.shed, 7, 500, false⟩; let rest : List Notice := [];
      s.mr.notices = n :: rest ∧ rest.length ≤ 15 ∧ s.mr.waitUp = false ∧
      (s.mr.headMark = 0 ∧ ∀ i : Fin 2, s.mr.managers[i.val].valid = false) ∧ s.tpa.ready ∧ s.tpb.ready ∧
      1 ≤ s.pool.freeCount ∧ (s.tpa.link = Link.up ∨ s.tpb.link = Link.up)) ∧
    (let s := noticed (onlyA plant); let n : Notice := ⟨.shed, 7, 500, false⟩; let rest : List Notice := [];
      s.mr.notices = n :: rest ∧ rest.length ≤ 15 ∧ s.mr.waitUp = false ∧
      (s.mr.headMark = 0 ∧ ∀ i : Fin 2, s.mr.managers[i.val].valid = false) ∧ s.tpa.ready ∧ s.tpb.ready ∧
      1 ≤ s.pool.freeCount ∧ (s.tpa.link = Link.up ∨ s.tpb.link = Link.up)) ∧
    (let s := noticed managed; let n : Notice := ⟨.shed, 7, 500, false⟩; let rest : List Notice := [];
      let i : Fin 2 := 0;
      s.mr.notices = n :: rest ∧ rest.length ≤ 15 ∧ s.mr.waitUp = false ∧
      (s.mr.headMark ≤ i.val ∧ s.mr.managers[i.val].valid = true ∧ ∀ j : Fin 2, s.mr.headMark ≤ j.val → j < i →
        s.mr.managers[j.val].valid = false) ∧ s.tpa.ready ∧ s.tpb.ready ∧ 1 ≤ s.pool.freeCount ∧
      (s.tpa.link = Link.up ∨ s.tpb.link = Link.up)) ∧
    (let s := restLinks (twoNotices (twoManagers plant)); let n : Notice := ⟨.shed, 7, 500, false⟩;
      let rest : List Notice := [⟨.overcommit, 4, 65535, true⟩]; let i : Fin 2 := 0;
      s.mr.notices = n :: rest ∧ rest.length ≤ 15 ∧ s.mr.waitUp = false ∧
      (s.mr.headMark ≤ i.val ∧ s.mr.managers[i.val].valid = true ∧ ∀ j : Fin 2, s.mr.headMark ≤ j.val → j < i →
        s.mr.managers[j.val].valid = false) ∧ s.tpa.ready ∧ s.tpb.ready ∧ 1 ≤ s.pool.freeCount ∧
      (s.tpa.link = Link.up ∨ s.tpb.link = Link.up)) ∧
    (let s := marked 1 (noticed (twoManagers plant)); let n : Notice := ⟨.shed, 7, 500, false⟩;
      let rest : List Notice := []; let i : Fin 2 := 1;
      s.mr.notices = n :: rest ∧ rest.length ≤ 15 ∧ s.mr.waitUp = false ∧
      (s.mr.headMark ≤ i.val ∧ s.mr.managers[i.val].valid = true ∧ ∀ j : Fin 2, s.mr.headMark ≤ j.val → j < i →
        s.mr.managers[j.val].valid = false) ∧ s.tpa.ready ∧ s.tpb.ready ∧ 1 ≤ s.pool.freeCount ∧
      (s.tpa.link = Link.up ∨ s.tpb.link = Link.up)) ∧
    (let s := noticed (secondManager (onlyA plant)); let n : Notice := ⟨.shed, 7, 500, false⟩;
      let rest : List Notice := []; let i : Fin 2 := 1;
      s.mr.notices = n :: rest ∧ rest.length ≤ 15 ∧ s.mr.waitUp = false ∧
      (s.mr.headMark ≤ i.val ∧ s.mr.managers[i.val].valid = true ∧ ∀ j : Fin 2, s.mr.headMark ≤ j.val → j < i →
        s.mr.managers[j.val].valid = false) ∧ s.tpa.ready ∧ s.tpb.ready ∧ 1 ≤ s.pool.freeCount ∧
      (s.tpa.link = Link.up ∨ s.tpb.link = Link.up)) ∧
    (let s := noticed (empty managed); let n : Notice := ⟨.shed, 7, 500, false⟩; let rest : List Notice := [];
      let i : Fin 2 := 0;
      s.mr.notices = n :: rest ∧ rest.length ≤ 15 ∧ s.mr.waitUp = false ∧
      (s.mr.headMark ≤ i.val ∧ s.mr.managers[i.val].valid = true ∧ ∀ j : Fin 2, s.mr.headMark ≤ j.val → j < i →
        s.mr.managers[j.val].valid = false) ∧ s.tpa.ready ∧ s.tpb.ready ∧ s.pool.freeCount = 0) ∧
    (let s := noticed (cutOff (twoManagers plant)); let n : Notice := ⟨.shed, 7, 500, false⟩;
      let rest : List Notice := []; let i : Fin 2 := 0;
      s.mr.notices = n :: rest ∧ rest.length ≤ 15 ∧ s.mr.waitUp = false ∧
      (s.mr.headMark ≤ i.val ∧ s.mr.managers[i.val].valid = true ∧ ∀ j : Fin 2, s.mr.headMark ≤ j.val → j < i →
        s.mr.managers[j.val].valid = false) ∧ s.tpa.ready ∧ s.tpb.ready ∧ 1 ≤ s.pool.freeCount ∧
      s.tpa.link = Link.down ∧ s.tpb.link = Link.down) ∧
    (let s := fullNotices (twoManagers plant); let n : Notice := ⟨.shed, 7, 500, false⟩;
      let rest := List.replicate 15 ⟨.shed, 7, 500, false⟩; let i : Fin 2 := 0;
      s.mr.notices = n :: rest ∧ rest.length ≤ 15 ∧ s.mr.waitUp = false ∧
      (s.mr.headMark ≤ i.val ∧ s.mr.managers[i.val].valid = true ∧ ∀ j : Fin 2, s.mr.headMark ≤ j.val → j < i →
        s.mr.managers[j.val].valid = false) ∧ s.tpa.ready ∧ s.tpb.ready ∧ 1 ≤ s.pool.freeCount ∧
      (s.tpa.link = Link.up ∨ s.tpb.link = Link.up)) ∧
    (let s := fullNotices plant; let n : Notice := ⟨.shed, 7, 500, false⟩;
      let rest := List.replicate 15 ⟨.shed, 7, 500, false⟩;
      s.mr.notices = n :: rest ∧ rest.length ≤ 15 ∧ s.mr.waitUp = false ∧
      (s.mr.headMark = 0 ∧ ∀ i : Fin 2, s.mr.managers[i.val].valid = false) ∧ s.tpa.ready ∧ s.tpb.ready ∧
      1 ≤ s.pool.freeCount ∧ (s.tpa.link = Link.up ∨ s.tpb.link = Link.up)) := by
  refine ⟨?_, ?_, ?_, ?_, ?_, ?_, ?_, ?_, ?_, ?_, ?_, ?_, ?_, ?_, ?_, ?_, ?_, ?_⟩ <;> decide +kernel

theorem witness_DefaultRoutes :
    (let s := toldShip 4 (freeLine (bothUse .running .none (motion .jogging .none .jog plant)));
      let h : Held := ⟨0, .zone⟩; let rest : List Held := []; let f := (s.buf h.buf).bytes;
      s.fe.hold = h :: rest ∧ s.hears { port := h.port, hop := frameHop f, origin := frameOrigin f } ∧
      (¬(frameType f = DestType.device ∧ byteAt f 1 = s.mr.ownZone ∧ byteAt f 2 = 0)) ∧
      (frameKind f = 4 → s.observable f) ∧ (s.buf h.buf).free = false ∧ s.tpa.ready ∧ s.tpb.ready ∧ s.zp.ready) ∧
    (let s := following (toldShip 3 (limits 3 150 2000 (manyLit (bothUse .running .none armed))));
      let h : Held := ⟨0, .zone⟩; let rest : List Held := []; let f := (s.buf h.buf).bytes;
      s.fe.hold = h :: rest ∧ s.hears { port := h.port, hop := frameHop f, origin := frameOrigin f } ∧
      (¬(frameType f = DestType.device ∧ byteAt f 1 = s.mr.ownZone ∧ byteAt f 2 = 0)) ∧
      (frameKind f = 4 → s.observable f) ∧ (s.buf h.buf).free = false ∧ s.tpa.ready ∧ s.tpb.ready ∧ s.zp.ready) ∧
    (let s := following (toldShip 3 (routed .copy none (freeLine (restLinks (limits 3 150 2000 (manyLit plant))))));
      let h : Held := ⟨0, .zone⟩; let rest : List Held := []; let f := (s.buf h.buf).bytes;
      s.fe.hold = h :: rest ∧ s.hears { port := h.port, hop := frameHop f, origin := frameOrigin f } ∧
      (¬(frameType f = DestType.device ∧ byteAt f 1 = s.mr.ownZone ∧ byteAt f 2 = 0)) ∧
      (frameKind f = 4 → s.observable f) ∧ (s.buf h.buf).free = false ∧ s.tpa.ready ∧ s.tpb.ready ∧ s.zp.ready) ∧
    (let s := following (toldShip 3 (routed .deliver none (limits 3 150 2000 (manyLit faulted))));
      let h : Held := ⟨0, .zone⟩; let rest : List Held := []; let f := (s.buf h.buf).bytes;
      s.fe.hold = h :: rest ∧ s.hears { port := h.port, hop := frameHop f, origin := frameOrigin f } ∧
      (¬(frameType f = DestType.device ∧ byteAt f 1 = s.mr.ownZone ∧ byteAt f 2 = 0)) ∧
      (frameKind f = 4 → s.observable f) ∧ (s.buf h.buf).free = false ∧ s.tpa.ready ∧ s.tpb.ready ∧ s.zp.ready) ∧
    (let s := held .a farFrame plant; let h : Held := ⟨0, .a⟩; let rest : List Held := [];
      let f := (s.buf h.buf).bytes;
      s.fe.hold = h :: rest ∧ s.hears { port := h.port, hop := frameHop f, origin := frameOrigin f } ∧
      (¬(frameType f = DestType.device ∧ byteAt f 1 = s.mr.ownZone ∧ byteAt f 2 = 0)) ∧
      (frameKind f = 4 → s.observable f) ∧ (s.buf h.buf).free = false ∧ s.tpa.ready ∧ s.tpb.ready ∧ s.zp.ready) ∧
    (let s := held .a farFrame (restLinks plant); let h : Held := ⟨0, .a⟩; let rest : List Held := [];
      let f := (s.buf h.buf).bytes;
      s.fe.hold = h :: rest ∧ s.hears { port := h.port, hop := frameHop f, origin := frameOrigin f } ∧
      (¬(frameType f = DestType.device ∧ byteAt f 1 = s.mr.ownZone ∧ byteAt f 2 = 0)) ∧
      (frameKind f = 4 → s.observable f) ∧ (s.buf h.buf).free = false ∧ s.tpa.ready ∧ s.tpb.ready ∧ s.zp.ready) ∧
    (let s := held .b nearFrame (freeLine plant); let h : Held := ⟨0, .b⟩; let rest : List Held := [];
      let f := (s.buf h.buf).bytes;
      s.fe.hold = h :: rest ∧ s.hears { port := h.port, hop := frameHop f, origin := frameOrigin f } ∧
      (¬(frameType f = DestType.device ∧ byteAt f 1 = s.mr.ownZone ∧ byteAt f 2 = 0)) ∧
      (frameKind f = 4 → s.observable f) ∧ (s.buf h.buf).free = false ∧ s.tpa.ready ∧ s.tpb.ready ∧ s.zp.ready) ∧
    (let s := held .b nearFrame plant; let h : Held := ⟨0, .b⟩; let rest : List Held := [];
      let f := (s.buf h.buf).bytes;
      s.fe.hold = h :: rest ∧ s.hears { port := h.port, hop := frameHop f, origin := frameOrigin f } ∧
      (¬(frameType f = DestType.device ∧ byteAt f 1 = s.mr.ownZone ∧ byteAt f 2 = 0)) ∧
      (frameKind f = 4 → s.observable f) ∧ (s.buf h.buf).free = false ∧ s.tpa.ready ∧ s.tpb.ready ∧ s.zp.ready) ∧
    (let s := held .zone farFrame plant; let h : Held := ⟨0, .zone⟩; let rest : List Held := [];
      let f := (s.buf h.buf).bytes;
      s.fe.hold = h :: rest ∧ s.hears { port := h.port, hop := frameHop f, origin := frameOrigin f } ∧
      (¬(frameType f = DestType.device ∧ byteAt f 1 = s.mr.ownZone ∧ byteAt f 2 = 0)) ∧
      (frameKind f = 4 → s.observable f) ∧ (s.buf h.buf).free = false ∧ s.tpa.ready ∧ s.tpb.ready ∧ s.zp.ready) ∧
    (let s := held .a shipFrame (freeLine (restLinks plant)); let h : Held := ⟨0, .a⟩; let rest : List Held := [];
      let f := (s.buf h.buf).bytes;
      s.fe.hold = h :: rest ∧ s.hears { port := h.port, hop := frameHop f, origin := frameOrigin f } ∧
      (¬(frameType f = DestType.device ∧ byteAt f 1 = s.mr.ownZone ∧ byteAt f 2 = 0)) ∧
      (frameKind f = 4 → s.observable f) ∧ (s.buf h.buf).free = false ∧ s.tpa.ready ∧ s.tpb.ready ∧ s.zp.ready) ∧
    (let s := held .a lastHop plant; let h : Held := ⟨0, .a⟩; let rest : List Held := [];
      let f := (s.buf h.buf).bytes;
      s.fe.hold = h :: rest ∧ s.hears { port := h.port, hop := frameHop f, origin := frameOrigin f } ∧
      (¬(frameType f = DestType.device ∧ byteAt f 1 = s.mr.ownZone ∧ byteAt f 2 = 0)) ∧
      (frameKind f = 4 → s.observable f) ∧ (s.buf h.buf).free = false ∧ s.tpa.ready ∧ s.tpb.ready ∧ s.zp.ready) ∧
    (let s := held .b lastHop (cutOff plant); let h : Held := ⟨0, .b⟩; let rest : List Held := [];
      let f := (s.buf h.buf).bytes;
      s.fe.hold = h :: rest ∧ s.hears { port := h.port, hop := frameHop f, origin := frameOrigin f } ∧
      (¬(frameType f = DestType.device ∧ byteAt f 1 = s.mr.ownZone ∧ byteAt f 2 = 0)) ∧
      (frameKind f = 4 → s.observable f) ∧ (s.buf h.buf).free = false ∧ s.tpa.ready ∧ s.tpb.ready ∧ s.zp.ready) ∧
    (let s := held .zone nearFrame plant; let h : Held := ⟨0, .zone⟩; let rest : List Held := [];
      let f := (s.buf h.buf).bytes;
      s.fe.hold = h :: rest ∧ s.hears { port := h.port, hop := frameHop f, origin := frameOrigin f } ∧
      (¬(frameType f = DestType.device ∧ byteAt f 1 = s.mr.ownZone ∧ byteAt f 2 = 0)) ∧
      (frameKind f = 4 → s.observable f) ∧ (s.buf h.buf).free = false ∧ s.tpa.ready ∧ s.tpb.ready ∧ s.zp.ready) ∧
    (let s := held .a groupFrame (routed .copy (some 9) (freeLine plant)); let h : Held := ⟨0, .a⟩;
      let rest : List Held := []; let f := (s.buf h.buf).bytes;
      s.fe.hold = h :: rest ∧ s.hears { port := h.port, hop := frameHop f, origin := frameOrigin f } ∧
      (¬(frameType f = DestType.device ∧ byteAt f 1 = s.mr.ownZone ∧ byteAt f 2 = 0)) ∧
      (frameKind f = 4 → s.observable f) ∧ (s.buf h.buf).free = false ∧ s.tpa.ready ∧ s.tpb.ready ∧ s.zp.ready) ∧
    (let s := held .zone groupFrame (routed .deliver (some 9) plant); let h : Held := ⟨0, .zone⟩;
      let rest : List Held := []; let f := (s.buf h.buf).bytes;
      s.fe.hold = h :: rest ∧ s.hears { port := h.port, hop := frameHop f, origin := frameOrigin f } ∧
      (¬(frameType f = DestType.device ∧ byteAt f 1 = s.mr.ownZone ∧ byteAt f 2 = 0)) ∧
      (frameKind f = 4 → s.observable f) ∧ (s.buf h.buf).free = false ∧ s.tpa.ready ∧ s.tpb.ready ∧ s.zp.ready) ∧
    (let s := held .zone groupFrame (routed .copy (some 255) (onlyA plant)); let h : Held := ⟨0, .zone⟩;
      let rest : List Held := []; let f := (s.buf h.buf).bytes;
      s.fe.hold = h :: rest ∧ s.hears { port := h.port, hop := frameHop f, origin := frameOrigin f } ∧
      (¬(frameType f = DestType.device ∧ byteAt f 1 = s.mr.ownZone ∧ byteAt f 2 = 0)) ∧
      (frameKind f = 4 → s.observable f) ∧ (s.buf h.buf).free = false ∧ s.tpa.ready ∧ s.tpb.ready ∧ s.zp.ready) ∧
    (let s := held .b farFrame (routed .uplink none (restLinks plant)); let h : Held := ⟨0, .b⟩;
      let rest : List Held := []; let f := (s.buf h.buf).bytes;
      s.fe.hold = h :: rest ∧ s.hears { port := h.port, hop := frameHop f, origin := frameOrigin f } ∧
      (¬(frameType f = DestType.device ∧ byteAt f 1 = s.mr.ownZone ∧ byteAt f 2 = 0)) ∧
      (frameKind f = 4 → s.observable f) ∧ (s.buf h.buf).free = false ∧ s.tpa.ready ∧ s.tpb.ready ∧ s.zp.ready) ∧
    (let s := held .a farFrame (routed .drop none plant); let h : Held := ⟨0, .a⟩; let rest : List Held := [];
      let f := (s.buf h.buf).bytes;
      s.fe.hold = h :: rest ∧ s.hears { port := h.port, hop := frameHop f, origin := frameOrigin f } ∧
      (¬(frameType f = DestType.device ∧ byteAt f 1 = s.mr.ownZone ∧ byteAt f 2 = 0)) ∧
      (frameKind f = 4 → s.observable f) ∧ (s.buf h.buf).free = false ∧ s.tpa.ready ∧ s.tpb.ready ∧ s.zp.ready) ∧
    (let s := held .a nearFrame faulted; let h : Held := ⟨0, .a⟩; let rest : List Held := [];
      let f := (s.buf h.buf).bytes;
      s.fe.hold = h :: rest ∧ s.hears { port := h.port, hop := frameHop f, origin := frameOrigin f } ∧
      (¬(frameType f = DestType.device ∧ byteAt f 1 = s.mr.ownZone ∧ byteAt f 2 = 0)) ∧
      (frameKind f = 4 → s.observable f) ∧ (s.buf h.buf).free = false ∧ s.tpa.ready ∧ s.tpb.ready ∧ s.zp.ready) ∧
    (let s := held .b nearFrame (jammed plant); let h : Held := ⟨0, .b⟩; let rest : List Held := [];
      let f := (s.buf h.buf).bytes;
      s.fe.hold = h :: rest ∧ s.hears { port := h.port, hop := frameHop f, origin := frameOrigin f } ∧
      (¬(frameType f = DestType.device ∧ byteAt f 1 = s.mr.ownZone ∧ byteAt f 2 = 0)) ∧
      (frameKind f = 4 → s.observable f) ∧ (s.buf h.buf).free = false ∧ s.tpa.ready ∧ s.tpb.ready ∧ s.zp.ready) ∧
    (let s := held .zone farFrame (routed .pass none plant); let h : Held := ⟨0, .zone⟩; let rest : List Held := [];
      let f := (s.buf h.buf).bytes;
      s.fe.hold = h :: rest ∧ s.hears { port := h.port, hop := frameHop f, origin := frameOrigin f } ∧
      (¬(frameType f = DestType.device ∧ byteAt f 1 = s.mr.ownZone ∧ byteAt f 2 = 0)) ∧
      (frameKind f = 4 → s.observable f) ∧ (s.buf h.buf).free = false ∧ s.tpa.ready ∧ s.tpb.ready ∧ s.zp.ready) ∧
    (let s := toldShip 5 armed; let h : Held := ⟨0, .zone⟩; let rest : List Held := []; let f := (s.buf h.buf).bytes;
      s.fe.hold = h :: rest ∧ s.hears { port := h.port, hop := frameHop f, origin := frameOrigin f } ∧
      (¬(frameType f = DestType.device ∧ byteAt f 1 = s.mr.ownZone ∧ byteAt f 2 = 0)) ∧
      (frameKind f = 4 → s.observable f) ∧ (s.buf h.buf).free = false ∧ s.tpa.ready ∧ s.tpb.ready ∧ s.zp.ready) ∧
    (let s := toldShip 0 (following plant); let h : Held := ⟨0, .zone⟩; let rest : List Held := [];
      let f := (s.buf h.buf).bytes;
      s.fe.hold = h :: rest ∧ s.hears { port := h.port, hop := frameHop f, origin := frameOrigin f } ∧
      (¬(frameType f = DestType.device ∧ byteAt f 1 = s.mr.ownZone ∧ byteAt f 2 = 0)) ∧
      (frameKind f = 4 → s.observable f) ∧ (s.buf h.buf).free = false ∧ s.tpa.ready ∧ s.tpb.ready ∧ s.zp.ready) ∧
    (let s := toldNear 9 armed; let h : Held := ⟨0, .zone⟩; let rest : List Held := []; let f := (s.buf h.buf).bytes;
      s.fe.hold = h :: rest ∧ s.hears { port := h.port, hop := frameHop f, origin := frameOrigin f } ∧
      (¬(frameType f = DestType.device ∧ byteAt f 1 = s.mr.ownZone ∧ byteAt f 2 = 0)) ∧
      (frameKind f = 4 → s.observable f) ∧ (s.buf h.buf).free = false ∧ s.tpa.ready ∧ s.tpb.ready ∧ s.zp.ready) ∧
    (let s := toldShip 4 (following (routed .deliver none plant)); let h : Held := ⟨0, .zone⟩;
      let rest : List Held := []; let f := (s.buf h.buf).bytes;
      s.fe.hold = h :: rest ∧ s.hears { port := h.port, hop := frameHop f, origin := frameOrigin f } ∧
      (¬(frameType f = DestType.device ∧ byteAt f 1 = s.mr.ownZone ∧ byteAt f 2 = 0)) ∧
      (frameKind f = 4 → s.observable f) ∧ (s.buf h.buf).free = false ∧ s.tpa.ready ∧ s.tpb.ready ∧ s.zp.ready) ∧
    (let s := toldAway 5 .copy armed; let h : Held := ⟨0, .a⟩; let rest : List Held := [];
      let f := (s.buf h.buf).bytes;
      s.fe.hold = h :: rest ∧ s.hears { port := h.port, hop := frameHop f, origin := frameOrigin f } ∧
      (¬(frameType f = DestType.device ∧ byteAt f 1 = s.mr.ownZone ∧ byteAt f 2 = 0)) ∧
      (frameKind f = 4 → s.observable f) ∧ (s.buf h.buf).free = false ∧ s.tpa.ready ∧ s.tpb.ready ∧ s.zp.ready) ∧
    (let s := toldAway 7 .pass armed; let h : Held := ⟨0, .a⟩; let rest : List Held := [];
      let f := (s.buf h.buf).bytes;
      s.fe.hold = h :: rest ∧ s.hears { port := h.port, hop := frameHop f, origin := frameOrigin f } ∧
      (¬(frameType f = DestType.device ∧ byteAt f 1 = s.mr.ownZone ∧ byteAt f 2 = 0)) ∧
      (frameKind f = 4 → s.observable f) ∧ (s.buf h.buf).free = false ∧ s.tpa.ready ∧ s.tpb.ready ∧ s.zp.ready) ∧
    (let s := toldAway 5 .drop (following plant); let h : Held := ⟨0, .a⟩; let rest : List Held := [];
      let f := (s.buf h.buf).bytes;
      s.fe.hold = h :: rest ∧ s.hears { port := h.port, hop := frameHop f, origin := frameOrigin f } ∧
      (¬(frameType f = DestType.device ∧ byteAt f 1 = s.mr.ownZone ∧ byteAt f 2 = 0)) ∧
      (frameKind f = 4 → s.observable f) ∧ (s.buf h.buf).free = false ∧ s.tpa.ready ∧ s.tpb.ready ∧ s.zp.ready) ∧
    (let s := toldAway 3 .uplink plant; let h : Held := ⟨0, .a⟩; let rest : List Held := [];
      let f := (s.buf h.buf).bytes;
      s.fe.hold = h :: rest ∧ s.hears { port := h.port, hop := frameHop f, origin := frameOrigin f } ∧
      (¬(frameType f = DestType.device ∧ byteAt f 1 = s.mr.ownZone ∧ byteAt f 2 = 0)) ∧
      (frameKind f = 4 → s.observable f) ∧ (s.buf h.buf).free = false ∧ s.tpa.ready ∧ s.tpb.ready ∧ s.zp.ready) ∧
    (let s := held .zone farFrame unassigned; let h : Held := ⟨0, .zone⟩; let rest : List Held := [];
      let f := (s.buf h.buf).bytes;
      s.fe.hold = h :: rest ∧ s.mr.ownZone = 0 ∧
      (¬(frameKind f = 7 ∧ frameType f = DestType.device ∧ byteAt f 1 = 0 ∧ byteAt f 2 = 0)) ∧
      (s.buf h.buf).refs = 1 ∧ s.tpa.ready ∧ s.tpb.ready ∧ h.port = Port.zone) ∧
    (let s := held .a lastHop unassigned; let h : Held := ⟨0, .a⟩; let rest : List Held := [];
      let f := (s.buf h.buf).bytes;
      s.fe.hold = h :: rest ∧ s.mr.ownZone = 0 ∧
      (¬(frameKind f = 7 ∧ frameType f = DestType.device ∧ byteAt f 1 = 0 ∧ byteAt f 2 = 0)) ∧
      (s.buf h.buf).refs = 1 ∧ s.tpa.ready ∧ s.tpb.ready ∧ h.port = Port.a) ∧
    (let s := held .a farFrame (restLinks unassigned); let h : Held := ⟨0, .a⟩; let rest : List Held := [];
      let f := (s.buf h.buf).bytes;
      s.fe.hold = h :: rest ∧ s.mr.ownZone = 0 ∧
      (¬(frameKind f = 7 ∧ frameType f = DestType.device ∧ byteAt f 1 = 0 ∧ byteAt f 2 = 0)) ∧
      (s.buf h.buf).refs = 1 ∧ s.tpa.ready ∧ s.tpb.ready ∧ h.port = Port.a) ∧
    (let s := held .b farFrame unassigned; let h : Held := ⟨0, .b⟩; let rest : List Held := [];
      let f := (s.buf h.buf).bytes;
      s.fe.hold = h :: rest ∧ s.mr.ownZone = 0 ∧
      (¬(frameKind f = 7 ∧ frameType f = DestType.device ∧ byteAt f 1 = 0 ∧ byteAt f 2 = 0)) ∧
      (s.buf h.buf).refs = 1 ∧ s.tpa.ready ∧ s.tpb.ready ∧ h.port = Port.b) ∧
    (let s := held .b farFrame (cutOff unassigned); let h : Held := ⟨0, .b⟩; let rest : List Held := [];
      let f := (s.buf h.buf).bytes;
      s.fe.hold = h :: rest ∧ s.mr.ownZone = 0 ∧
      (¬(frameKind f = 7 ∧ frameType f = DestType.device ∧ byteAt f 1 = 0 ∧ byteAt f 2 = 0)) ∧
      (s.buf h.buf).refs = 1 ∧ s.tpa.ready ∧ s.tpb.ready ∧ h.port = Port.b) ∧
    (let s := toldShip 4 armed; let h : Held := ⟨0, .zone⟩; let rest : List Held := []; let f := (s.buf h.buf).bytes;
      s.fe.hold = h :: rest ∧ s.hears { port := h.port, hop := frameHop f, origin := frameOrigin f } ∧
      (¬(frameType f = DestType.device ∧ byteAt f 1 = s.mr.ownZone ∧ byteAt f 2 = 0)) ∧
      (frameKind f = 4 → s.observable f) ∧ (s.buf h.buf).free = false ∧ s.tpa.ready ∧ s.tpb.ready ∧ s.zp.ready) ∧
    (let s := toldShip 4 (routed .copy none (freeLine (manyShed (awaited 9 (motion .starting .shedding .run
        plant))))); let h : Held := ⟨0, .zone⟩; let rest : List Held := []; let f := (s.buf h.buf).bytes;
      s.fe.hold = h :: rest ∧ s.hears { port := h.port, hop := frameHop f, origin := frameOrigin f } ∧
      (¬(frameType f = DestType.device ∧ byteAt f 1 = s.mr.ownZone ∧ byteAt f 2 = 0)) ∧
      (frameKind f = 4 → s.observable f) ∧ (s.buf h.buf).free = false ∧ s.tpa.ready ∧ s.tpb.ready ∧ s.zp.ready) ∧
    (let s := following (toldShip 3 (routed .drop none (ample 3 (manyShed armed)))); let h : Held := ⟨0, .zone⟩;
      let rest : List Held := []; let f := (s.buf h.buf).bytes;
      s.fe.hold = h :: rest ∧ s.hears { port := h.port, hop := frameHop f, origin := frameOrigin f } ∧
      (¬(frameType f = DestType.device ∧ byteAt f 1 = s.mr.ownZone ∧ byteAt f 2 = 0)) ∧
      (frameKind f = 4 → s.observable f) ∧ (s.buf h.buf).free = false ∧ s.tpa.ready ∧ s.tpb.ready ∧ s.zp.ready) ∧
    (let s := toldShip 4 (routed .deliver none (scarce armed)); let h : Held := ⟨0, .zone⟩;
      let rest : List Held := []; let f := (s.buf h.buf).bytes;
      s.fe.hold = h :: rest ∧ s.hears { port := h.port, hop := frameHop f, origin := frameOrigin f } ∧
      (¬(frameType f = DestType.device ∧ byteAt f 1 = s.mr.ownZone ∧ byteAt f 2 = 0)) ∧
      (frameKind f = 4 → s.observable f) ∧ (s.buf h.buf).free = false ∧ s.tpa.ready ∧ s.tpb.ready ∧ s.zp.ready) := by
  refine ⟨⟨?_, ?_, ?_, ?_, ?_, ?_, ?_, ?_⟩, ⟨?_, ?_, ?_, ?_, ?_, ?_, ?_, ?_⟩, ⟨?_, ?_, ?_, ?_, ?_, ?_, ?_, ?_⟩, ⟨?_,
    ?_, ?_, ?_, ?_, ?_, ?_, ?_⟩, ⟨?_, ?_, ?_, ?_, ?_, ?_, ?_, ?_⟩, ⟨?_, ?_, ?_, ?_, ?_, ?_, ?_, ?_⟩, ⟨?_, ?_, ?_, ?_,
    ?_, ?_, ?_, ?_⟩, ⟨?_, ?_, ?_, ?_, ?_, ?_, ?_, ?_⟩, ⟨?_, ?_, ?_, ?_, ?_, ?_, ?_, ?_⟩, ⟨?_, ?_, ?_, ?_, ?_, ?_, ?_,
    ?_⟩, ⟨?_, ?_, ?_, ?_, ?_, ?_, ?_, ?_⟩, ⟨?_, ?_, ?_, ?_, ?_, ?_, ?_, ?_⟩, ⟨?_, ?_, ?_, ?_, ?_, ?_, ?_, ?_⟩, ⟨?_,
    ?_, ?_, ?_, ?_, ?_, ?_, ?_⟩, ⟨?_, ?_, ?_, ?_, ?_, ?_, ?_, ?_⟩, ⟨?_, ?_, ?_, ?_, ?_, ?_, ?_, ?_⟩, ⟨?_, ?_, ?_, ?_,
    ?_, ?_, ?_, ?_⟩, ⟨?_, ?_, ?_, ?_, ?_, ?_, ?_, ?_⟩, ⟨?_, ?_, ?_, ?_, ?_, ?_, ?_, ?_⟩, ⟨?_, ?_, ?_, ?_, ?_, ?_, ?_,
    ?_⟩, ⟨?_, ?_, ?_, ?_, ?_, ?_, ?_, ?_⟩, ⟨?_, ?_, ?_, ?_, ?_, ?_, ?_, ?_⟩, ⟨?_, ?_, ?_, ?_, ?_, ?_, ?_, ?_⟩, ⟨?_,
    ?_, ?_, ?_, ?_, ?_, ?_, ?_⟩, ⟨?_, ?_, ?_, ?_, ?_, ?_, ?_, ?_⟩, ⟨?_, ?_, ?_, ?_, ?_, ?_, ?_, ?_⟩, ⟨?_, ?_, ?_, ?_,
    ?_, ?_, ?_, ?_⟩, ⟨?_, ?_, ?_, ?_, ?_, ?_, ?_, ?_⟩, ⟨?_, ?_, ?_, ?_, ?_, ?_, ?_, ?_⟩, ⟨?_, ?_, ?_, ?_, ?_, ?_, ?_⟩,
    ⟨?_, ?_, ?_, ?_, ?_, ?_, ?_⟩, ⟨?_, ?_, ?_, ?_, ?_, ?_, ?_⟩, ⟨?_, ?_, ?_, ?_, ?_, ?_, ?_⟩, ⟨?_, ?_, ?_, ?_, ?_, ?_,
    ?_⟩, ⟨?_, ?_, ?_, ?_, ?_, ?_, ?_, ?_⟩, ⟨?_, ?_, ?_, ?_, ?_, ?_, ?_, ?_⟩, ⟨?_, ?_, ?_, ?_, ?_, ?_, ?_, ?_⟩, ⟨?_,
    ?_, ?_, ?_, ?_, ?_, ?_, ?_⟩⟩ <;> decide +kernel

theorem witness_StateFrameFeedsPoints :
    (let s := following (told 3 (limits 3 150 2000 (manyLit plant))); let h : Held := ⟨0, .zone⟩;
      let rest : List Held := []; let f := (s.buf h.buf).bytes;
      s.fe.hold = h :: rest ∧ s.hears { port := h.port, hop := frameHop f, origin := frameOrigin f } ∧
      frameKind f = 4 ∧
      (frameType f = DestType.device ∧ byteAt f 1 = s.mr.ownZone ∧ byteAt f 2 = 0 ∨ (routeOf s h.port f).fst =
        Action.drop) ∧ s.observable f) ∧
    (let s := following (told 3 (flagged (limits 3 99 250 (manyLit (essential plant))))); let h : Held := ⟨0, .zone⟩;
      let rest : List Held := []; let f := (s.buf h.buf).bytes;
      s.fe.hold = h :: rest ∧ s.hears { port := h.port, hop := frameHop f, origin := frameOrigin f } ∧
      frameKind f = 4 ∧
      (frameType f = DestType.device ∧ byteAt f 1 = s.mr.ownZone ∧ byteAt f 2 = 0 ∨ (routeOf s h.port f).fst =
        Action.drop) ∧ s.observable f) ∧
    (let s := following (told 3 (limits 3 1100 250 (manyLit plant))); let h : Held := ⟨0, .zone⟩;
      let rest : List Held := []; let f := (s.buf h.buf).bytes;
      s.fe.hold = h :: rest ∧ s.hears { port := h.port, hop := frameHop f, origin := frameOrigin f } ∧
      frameKind f = 4 ∧
      (frameType f = DestType.device ∧ byteAt f 1 = s.mr.ownZone ∧ byteAt f 2 = 0 ∨ (routeOf s h.port f).fst =
        Action.drop) ∧ s.observable f) ∧
    (let s := following (told 3 (limits 3 1000 2000 (manyLit plant))); let h : Held := ⟨0, .zone⟩;
      let rest : List Held := []; let f := (s.buf h.buf).bytes;
      s.fe.hold = h :: rest ∧ s.hears { port := h.port, hop := frameHop f, origin := frameOrigin f } ∧
      frameKind f = 4 ∧
      (frameType f = DestType.device ∧ byteAt f 1 = s.mr.ownZone ∧ byteAt f 2 = 0 ∨ (routeOf s h.port f).fst =
        Action.drop) ∧ s.observable f) ∧
    (let s := told 4 (bothUse .running .none armed); let h : Held := ⟨0, .zone⟩; let rest : List Held := [];
      let f := (s.buf h.buf).bytes;
      s.fe.hold = h :: rest ∧ s.hears { port := h.port, hop := frameHop f, origin := frameOrigin f } ∧
      frameKind f = 4 ∧
      (frameType f = DestType.device ∧ byteAt f 1 = s.mr.ownZone ∧ byteAt f 2 = 0 ∨ (routeOf s h.port f).fst =
        Action.drop) ∧ s.observable f) ∧
    (let s := told 4 (bothUse .starting .queued (motion .running .none .run plant)); let h : Held := ⟨0, .zone⟩;
      let rest : List Held := []; let f := (s.buf h.buf).bytes;
      s.fe.hold = h :: rest ∧ s.hears { port := h.port, hop := frameHop f, origin := frameOrigin f } ∧
      frameKind f = 4 ∧
      (frameType f = DestType.device ∧ byteAt f 1 = s.mr.ownZone ∧ byteAt f 2 = 0 ∨ (routeOf s h.port f).fst =
        Action.drop) ∧ s.observable f) ∧
    (let s := freeLine (told 4 (bothUse .jogging .none (motion .starting .sent .run plant)));
      let h : Held := ⟨0, .zone⟩; let rest : List Held := []; let f := (s.buf h.buf).bytes;
      s.fe.hold = h :: rest ∧ s.hears { port := h.port, hop := frameHop f, origin := frameOrigin f } ∧
      frameKind f = 4 ∧
      (frameType f = DestType.device ∧ byteAt f 1 = s.mr.ownZone ∧ byteAt f 2 = 0 ∨ (routeOf s h.port f).fst =
        Action.drop) ∧ s.observable f) ∧
    (let s := told 4 (manyShed (awaited 9 (bothUse .armed .none (motion .starting .shedding .run plant))));
      let h : Held := ⟨0, .zone⟩; let rest : List Held := []; let f := (s.buf h.buf).bytes;
      s.fe.hold = h :: rest ∧ s.hears { port := h.port, hop := frameHop f, origin := frameOrigin f } ∧
      frameKind f = 4 ∧
      (frameType f = DestType.device ∧ byteAt f 1 = s.mr.ownZone ∧ byteAt f 2 = 0 ∨ (routeOf s h.port f).fst =
        Action.drop) ∧ s.observable f) ∧
    (let s := told 4 (crossed (bothUse .running .none (motion .running .none .run plant)));
      let h : Held := ⟨0, .zone⟩; let rest : List Held := []; let f := (s.buf h.buf).bytes;
      s.fe.hold = h :: rest ∧ s.hears { port := h.port, hop := frameHop f, origin := frameOrigin f } ∧
      frameKind f = 4 ∧
      (frameType f = DestType.device ∧ byteAt f 1 = s.mr.ownZone ∧ byteAt f 2 = 0 ∨ (routeOf s h.port f).fst =
        Action.drop) ∧ s.observable f) ∧
    (let s := told 9 (crossed (bothUse .armed .none armed)); let h : Held := ⟨0, .zone⟩; let rest : List Held := [];
      let f := (s.buf h.buf).bytes;
      s.fe.hold = h :: rest ∧ s.hears { port := h.port, hop := frameHop f, origin := frameOrigin f } ∧
      frameKind f = 4 ∧
      (frameType f = DestType.device ∧ byteAt f 1 = s.mr.ownZone ∧ byteAt f 2 = 0 ∨ (routeOf s h.port f).fst =
        Action.drop) ∧ s.observable f) ∧
    (let s := following (told 3 (limits 3 150 2000 (manyLit (bothUse .running .none armed))));
      let h : Held := ⟨0, .zone⟩; let rest : List Held := []; let f := (s.buf h.buf).bytes;
      s.fe.hold = h :: rest ∧ s.hears { port := h.port, hop := frameHop f, origin := frameOrigin f } ∧
      frameKind f = 4 ∧
      (frameType f = DestType.device ∧ byteAt f 1 = s.mr.ownZone ∧ byteAt f 2 = 0 ∨ (routeOf s h.port f).fst =
        Action.drop) ∧ s.observable f) ∧
    (let s := following (told 3 (ample 3 (manyShed (bothUse .armed .none (motion .starting .shedding .run plant)))));
      let h : Held := ⟨0, .zone⟩; let rest : List Held := []; let f := (s.buf h.buf).bytes;
      s.fe.hold = h :: rest ∧ s.hears { port := h.port, hop := frameHop f, origin := frameOrigin f } ∧
      frameKind f = 4 ∧
      (frameType f = DestType.device ∧ byteAt f 1 = s.mr.ownZone ∧ byteAt f 2 = 0 ∨ (routeOf s h.port f).fst =
        Action.drop) ∧ s.observable f) ∧
    (let s := told 4 (bothUse .stopping .none armed); let h : Held := ⟨0, .zone⟩; let rest : List Held := [];
      let f := (s.buf h.buf).bytes;
      s.fe.hold = h :: rest ∧ s.hears { port := h.port, hop := frameHop f, origin := frameOrigin f } ∧
      frameKind f = 4 ∧
      (frameType f = DestType.device ∧ byteAt f 1 = s.mr.ownZone ∧ byteAt f 2 = 0 ∨ (routeOf s h.port f).fst =
        Action.drop) ∧ s.observable f) ∧
    (let s := told 4 armed; let h : Held := ⟨0, .zone⟩; let rest : List Held := []; let f := (s.buf h.buf).bytes;
      s.fe.hold = h :: rest ∧ s.hears { port := h.port, hop := frameHop f, origin := frameOrigin f } ∧
      frameKind f = 4) ∧
    (let s := toldAway 4 .copy (motion .running .none .run plant); let h : Held := ⟨0, .a⟩;
      let rest : List Held := []; let f := (s.buf h.buf).bytes;
      s.fe.hold = h :: rest ∧ s.hears { port := h.port, hop := frameHop f, origin := frameOrigin f } ∧
      frameKind f = 4) ∧
    (let s := following (toldShip 3 (limits 3 99 99 (victim plant))); let h : Held := ⟨0, .zone⟩;
      let rest : List Held := []; let f := (s.buf h.buf).bytes;
      s.fe.hold = h :: rest ∧ s.hears { port := h.port, hop := frameHop f, origin := frameOrigin f } ∧
      frameKind f = 4) ∧
    (let s := feeding; let h : Held := ⟨0, .zone⟩; let rest : List Held := []; let f := (s.buf h.buf).bytes;
      let t : State := { s.fedBy f with fe := { s.fe with hold := rest } };
      s.fe.hold = h :: rest ∧ s.hears { port := h.port, hop := frameHop f, origin := frameOrigin f } ∧
      frameKind f = 4 ∧
      (frameType f = DestType.device ∧ byteAt f 1 = s.mr.ownZone ∧ byteAt f 2 = 0 ∨ (routeOf s h.port f).fst =
        Action.drop) ∧ s.steady f ∧ (∀ x : Fin 4, t.calm x)) ∧
    (let s := toldNear 5 armed; let h : Held := ⟨0, .zone⟩; let rest : List Held := []; let f := (s.buf h.buf).bytes;
      let t : State := { s.fedBy f with fe := { s.fe with hold := rest } };
      s.fe.hold = h :: rest ∧ s.hears { port := h.port, hop := frameHop f, origin := frameOrigin f } ∧
      frameKind f = 4 ∧
      (frameType f = DestType.device ∧ byteAt f 1 = s.mr.ownZone ∧ byteAt f 2 = 0 ∨ (routeOf s h.port f).fst =
        Action.drop) ∧ s.steady f ∧ (∀ x : Fin 4, t.calm x)) ∧
    (let s := toldAway 4 .drop armed; let h : Held := ⟨0, .a⟩; let rest : List Held := [];
      let f := (s.buf h.buf).bytes;
      s.fe.hold = h :: rest ∧ s.hears { port := h.port, hop := frameHop f, origin := frameOrigin f } ∧
      frameKind f = 4 ∧
      (frameType f = DestType.device ∧ byteAt f 1 = s.mr.ownZone ∧ byteAt f 2 = 0 ∨ (routeOf s h.port f).fst =
        Action.drop) ∧ s.observable f) ∧
    (let s := following (toldNear 3 (limits 3 99 99 (essential plant))); let h : Held := ⟨0, .zone⟩;
      let rest : List Held := []; let f := (s.buf h.buf).bytes;
      s.fe.hold = h :: rest ∧ s.hears { port := h.port, hop := frameHop f, origin := frameOrigin f } ∧
      frameKind f = 4 ∧
      (frameType f = DestType.device ∧ byteAt f 1 = s.mr.ownZone ∧ byteAt f 2 = 0 ∨ (routeOf s h.port f).fst =
        Action.drop) ∧ s.observable f) ∧
    (let s := following (toldNear 3 (limits 3 99 2000 (victim plant))); let h : Held := ⟨0, .zone⟩;
      let rest : List Held := []; let f := (s.buf h.buf).bytes;
      s.fe.hold = h :: rest ∧ s.hears { port := h.port, hop := frameHop f, origin := frameOrigin f } ∧
      frameKind f = 4 ∧
      (frameType f = DestType.device ∧ byteAt f 1 = s.mr.ownZone ∧ byteAt f 2 = 0 ∨ (routeOf s h.port f).fst =
        Action.drop) ∧ s.observable f) ∧
    (let s := told 5 armed; let h : Held := ⟨0, .zone⟩; let rest : List Held := []; let f := (s.buf h.buf).bytes;
      let t : State := { s.fedBy f with fe := { s.fe with hold := rest } };
      s.fe.hold = h :: rest ∧ s.hears { port := h.port, hop := frameHop f, origin := frameOrigin f } ∧
      frameKind f = 4 ∧
      (frameType f = DestType.device ∧ byteAt f 1 = s.mr.ownZone ∧ byteAt f 2 = 0 ∨ (routeOf s h.port f).fst =
        Action.drop) ∧ s.steady f ∧ (∀ x : Fin 4, t.calm x)) ∧
    (let s := following (told 4 plant); let h : Held := ⟨0, .zone⟩; let rest : List Held := [];
      let f := (s.buf h.buf).bytes; let t : State := { s.fedBy f with fe := { s.fe with hold := rest } };
      s.fe.hold = h :: rest ∧ s.hears { port := h.port, hop := frameHop f, origin := frameOrigin f } ∧
      frameKind f = 4 ∧
      (frameType f = DestType.device ∧ byteAt f 1 = s.mr.ownZone ∧ byteAt f 2 = 0 ∨ (routeOf s h.port f).fst =
        Action.drop) ∧ s.steady f ∧ (∀ x : Fin 4, t.calm x)) ∧
    (let s := following (told 0 plant); let h : Held := ⟨0, .zone⟩; let rest : List Held := [];
      let f := (s.buf h.buf).bytes; let t : State := { s.fedBy f with fe := { s.fe with hold := rest } };
      s.fe.hold = h :: rest ∧ s.hears { port := h.port, hop := frameHop f, origin := frameOrigin f } ∧
      frameKind f = 4 ∧
      (frameType f = DestType.device ∧ byteAt f 1 = s.mr.ownZone ∧ byteAt f 2 = 0 ∨ (routeOf s h.port f).fst =
        Action.drop) ∧ s.steady f ∧ (∀ x : Fin 4, t.calm x)) ∧
    (let s := told 4 armed; let h : Held := ⟨0, .zone⟩; let rest : List Held := []; let f := (s.buf h.buf).bytes;
      s.fe.hold = h :: rest ∧ s.hears { port := h.port, hop := frameHop f, origin := frameOrigin f } ∧
      frameKind f = 4 ∧
      (frameType f = DestType.device ∧ byteAt f 1 = s.mr.ownZone ∧ byteAt f 2 = 0 ∨ (routeOf s h.port f).fst =
        Action.drop) ∧ s.observable f) ∧
    (let s := told 4 (motion .starting .shedding .run plant); let h : Held := ⟨0, .zone⟩; let rest : List Held := [];
      let f := (s.buf h.buf).bytes;
      s.fe.hold = h :: rest ∧ s.hears { port := h.port, hop := frameHop f, origin := frameOrigin f } ∧
      frameKind f = 4 ∧
      (frameType f = DestType.device ∧ byteAt f 1 = s.mr.ownZone ∧ byteAt f 2 = 0 ∨ (routeOf s h.port f).fst =
        Action.drop) ∧ s.observable f) ∧
    (let s := told 4 (manyShed (awaited 9 (motion .starting .shedding .run plant))); let h : Held := ⟨0, .zone⟩;
      let rest : List Held := []; let f := (s.buf h.buf).bytes;
      s.fe.hold = h :: rest ∧ s.hears { port := h.port, hop := frameHop f, origin := frameOrigin f } ∧
      frameKind f = 4 ∧
      (frameType f = DestType.device ∧ byteAt f 1 = s.mr.ownZone ∧ byteAt f 2 = 0 ∨ (routeOf s h.port f).fst =
        Action.drop) ∧ s.observable f) ∧
    (let s := told 4 startQueued; let h : Held := ⟨0, .zone⟩; let rest : List Held := [];
      let f := (s.buf h.buf).bytes;
      s.fe.hold = h :: rest ∧ s.hears { port := h.port, hop := frameHop f, origin := frameOrigin f } ∧
      frameKind f = 4 ∧
      (frameType f = DestType.device ∧ byteAt f 1 = s.mr.ownZone ∧ byteAt f 2 = 0 ∨ (routeOf s h.port f).fst =
        Action.drop) ∧ s.observable f) ∧
    (let s := told 4 (motion .running .none .run plant); let h : Held := ⟨0, .zone⟩; let rest : List Held := [];
      let f := (s.buf h.buf).bytes;
      s.fe.hold = h :: rest ∧ s.hears { port := h.port, hop := frameHop f, origin := frameOrigin f } ∧
      frameKind f = 4 ∧
      (frameType f = DestType.device ∧ byteAt f 1 = s.mr.ownZone ∧ byteAt f 2 = 0 ∨ (routeOf s h.port f).fst =
        Action.drop) ∧ s.observable f) ∧
    (let s := told 4 (freeLine (motion .starting .sent .run plant)); let h : Held := ⟨0, .zone⟩;
      let rest : List Held := []; let f := (s.buf h.buf).bytes;
      s.fe.hold = h :: rest ∧ s.hears { port := h.port, hop := frameHop f, origin := frameOrigin f } ∧
      frameKind f = 4 ∧
      (frameType f = DestType.device ∧ byteAt f 1 = s.mr.ownZone ∧ byteAt f 2 = 0 ∨ (routeOf s h.port f).fst =
        Action.drop) ∧ s.observable f) ∧
    (let s := told 4 (motion .jogging .none .jog plant); let h : Held := ⟨0, .zone⟩; let rest : List Held := [];
      let f := (s.buf h.buf).bytes;
      s.fe.hold = h :: rest ∧ s.hears { port := h.port, hop := frameHop f, origin := frameOrigin f } ∧
      frameKind f = 4 ∧
      (frameType f = DestType.device ∧ byteAt f 1 = s.mr.ownZone ∧ byteAt f 2 = 0 ∨ (routeOf s h.port f).fst =
        Action.drop) ∧ s.observable f) ∧
    (let s := following (told 3 (limits 3 1000 2000 plant)); let h : Held := ⟨0, .zone⟩; let rest : List Held := [];
      let f := (s.buf h.buf).bytes;
      s.fe.hold = h :: rest ∧ s.hears { port := h.port, hop := frameHop f, origin := frameOrigin f } ∧
      frameKind f = 4 ∧
      (frameType f = DestType.device ∧ byteAt f 1 = s.mr.ownZone ∧ byteAt f 2 = 0 ∨ (routeOf s h.port f).fst =
        Action.drop) ∧ s.observable f) ∧
    (let s := following (told 3 (ample 3 plant)); let h : Held := ⟨0, .zone⟩; let rest : List Held := [];
      let f := (s.buf h.buf).bytes;
      s.fe.hold = h :: rest ∧ s.hears { port := h.port, hop := frameHop f, origin := frameOrigin f } ∧
      frameKind f = 4 ∧
      (frameType f = DestType.device ∧ byteAt f 1 = s.mr.ownZone ∧ byteAt f 2 = 0 ∨ (routeOf s h.port f).fst =
        Action.drop) ∧ s.observable f) ∧
    (let s := following (told 3 (ample 3 (manyShed plant))); let h : Held := ⟨0, .zone⟩; let rest : List Held := [];
      let f := (s.buf h.buf).bytes;
      s.fe.hold = h :: rest ∧ s.hears { port := h.port, hop := frameHop f, origin := frameOrigin f } ∧
      frameKind f = 4 ∧
      (frameType f = DestType.device ∧ byteAt f 1 = s.mr.ownZone ∧ byteAt f 2 = 0 ∨ (routeOf s h.port f).fst =
        Action.drop) ∧ s.observable f) ∧
    (let s := following (told 3 (limits 3 99 99 (essential plant))); let h : Held := ⟨0, .zone⟩;
      let rest : List Held := []; let f := (s.buf h.buf).bytes;
      s.fe.hold = h :: rest ∧ s.hears { port := h.port, hop := frameHop f, origin := frameOrigin f } ∧
      frameKind f = 4 ∧
      (frameType f = DestType.device ∧ byteAt f 1 = s.mr.ownZone ∧ byteAt f 2 = 0 ∨ (routeOf s h.port f).fst =
        Action.drop) ∧ s.observable f) ∧
    (let s := following (told 3 (flagged (limits 3 99 100 (essential plant)))); let h : Held := ⟨0, .zone⟩;
      let rest : List Held := []; let f := (s.buf h.buf).bytes;
      s.fe.hold = h :: rest ∧ s.hears { port := h.port, hop := frameHop f, origin := frameOrigin f } ∧
      frameKind f = 4 ∧
      (frameType f = DestType.device ∧ byteAt f 1 = s.mr.ownZone ∧ byteAt f 2 = 0 ∨ (routeOf s h.port f).fst =
        Action.drop) ∧ s.observable f) ∧
    (let s := following (told 3 (limits 3 1000 2000 (flagged (victim plant)))); let h : Held := ⟨0, .zone⟩;
      let rest : List Held := []; let f := (s.buf h.buf).bytes;
      s.fe.hold = h :: rest ∧ s.hears { port := h.port, hop := frameHop f, origin := frameOrigin f } ∧
      frameKind f = 4 ∧
      (frameType f = DestType.device ∧ byteAt f 1 = s.mr.ownZone ∧ byteAt f 2 = 0 ∨ (routeOf s h.port f).fst =
        Action.drop) ∧ s.observable f) ∧
    (let s := following (told 3 (limits 3 99 2000 (victim plant))); let h : Held := ⟨0, .zone⟩;
      let rest : List Held := []; let f := (s.buf h.buf).bytes;
      s.fe.hold = h :: rest ∧ s.hears { port := h.port, hop := frameHop f, origin := frameOrigin f } ∧
      frameKind f = 4 ∧
      (frameType f = DestType.device ∧ byteAt f 1 = s.mr.ownZone ∧ byteAt f 2 = 0 ∨ (routeOf s h.port f).fst =
        Action.drop) ∧ s.observable f) ∧
    (let s := following (told 3 (limits 3 99 3000 (victim plant))); let h : Held := ⟨0, .zone⟩;
      let rest : List Held := []; let f := (s.buf h.buf).bytes;
      s.fe.hold = h :: rest ∧ s.hears { port := h.port, hop := frameHop f, origin := frameOrigin f } ∧
      frameKind f = 4 ∧
      (frameType f = DestType.device ∧ byteAt f 1 = s.mr.ownZone ∧ byteAt f 2 = 0 ∨ (routeOf s h.port f).fst =
        Action.drop) ∧ s.observable f) ∧
    (let s := following (told 3 (limits 3 99 99 (victim (essential plant)))); let h : Held := ⟨0, .zone⟩;
      let rest : List Held := []; let f := (s.buf h.buf).bytes;
      s.fe.hold = h :: rest ∧ s.hears { port := h.port, hop := frameHop f, origin := frameOrigin f } ∧
      frameKind f = 4 ∧
      (frameType f = DestType.device ∧ byteAt f 1 = s.mr.ownZone ∧ byteAt f 2 = 0 ∨ (routeOf s h.port f).fst =
        Action.drop) ∧ s.observable f) ∧
    (let s := following (told 3 (flagged (limits 3 0 0 (victim (essential plant))))); let h : Held := ⟨0, .zone⟩;
      let rest : List Held := []; let f := (s.buf h.buf).bytes;
      s.fe.hold = h :: rest ∧ s.hears { port := h.port, hop := frameHop f, origin := frameOrigin f } ∧
      frameKind f = 4 ∧
      (frameType f = DestType.device ∧ byteAt f 1 = s.mr.ownZone ∧ byteAt f 2 = 0 ∨ (routeOf s h.port f).fst =
        Action.drop) ∧ s.observable f) ∧
    (let s := following (told 3 (limits 3 1000 199 (victim (essential plant)))); let h : Held := ⟨0, .zone⟩;
      let rest : List Held := []; let f := (s.buf h.buf).bytes;
      s.fe.hold = h :: rest ∧ s.hears { port := h.port, hop := frameHop f, origin := frameOrigin f } ∧
      frameKind f = 4 ∧
      (frameType f = DestType.device ∧ byteAt f 1 = s.mr.ownZone ∧ byteAt f 2 = 0 ∨ (routeOf s h.port f).fst =
        Action.drop) ∧ s.observable f) := by
  refine ⟨⟨?_, ?_, ?_, ?_, ?_⟩, ⟨?_, ?_, ?_, ?_, ?_⟩, ⟨?_, ?_, ?_, ?_, ?_⟩, ⟨?_, ?_, ?_, ?_, ?_⟩, ⟨?_, ?_, ?_, ?_,
    ?_⟩, ⟨?_, ?_, ?_, ?_, ?_⟩, ⟨?_, ?_, ?_, ?_, ?_⟩, ⟨?_, ?_, ?_, ?_, ?_⟩, ⟨?_, ?_, ?_, ?_, ?_⟩, ⟨?_, ?_, ?_, ?_, ?_⟩,
    ⟨?_, ?_, ?_, ?_, ?_⟩, ⟨?_, ?_, ?_, ?_, ?_⟩, ⟨?_, ?_, ?_, ?_, ?_⟩, ⟨?_, ?_, ?_⟩, ⟨?_, ?_, ?_⟩, ⟨?_, ?_, ?_⟩, ⟨?_,
    ?_, ?_, ?_, ?_, ?_⟩, ⟨?_, ?_, ?_, ?_, ?_, ?_⟩, ⟨?_, ?_, ?_, ?_, ?_⟩, ⟨?_, ?_, ?_, ?_, ?_⟩, ⟨?_, ?_, ?_, ?_, ?_⟩,
    ⟨?_, ?_, ?_, ?_, ?_, ?_⟩, ⟨?_, ?_, ?_, ?_, ?_, ?_⟩, ⟨?_, ?_, ?_, ?_, ?_, ?_⟩, ⟨?_, ?_, ?_, ?_, ?_⟩, ⟨?_, ?_, ?_,
    ?_, ?_⟩, ⟨?_, ?_, ?_, ?_, ?_⟩, ⟨?_, ?_, ?_, ?_, ?_⟩, ⟨?_, ?_, ?_, ?_, ?_⟩, ⟨?_, ?_, ?_, ?_, ?_⟩, ⟨?_, ?_, ?_, ?_,
    ?_⟩, ⟨?_, ?_, ?_, ?_, ?_⟩, ⟨?_, ?_, ?_, ?_, ?_⟩, ⟨?_, ?_, ?_, ?_, ?_⟩, ⟨?_, ?_, ?_, ?_, ?_⟩, ⟨?_, ?_, ?_, ?_, ?_⟩,
    ⟨?_, ?_, ?_, ?_, ?_⟩, ⟨?_, ?_, ?_, ?_, ?_⟩, ⟨?_, ?_, ?_, ?_, ?_⟩, ⟨?_, ?_, ?_, ?_, ?_⟩, ⟨?_, ?_, ?_, ?_, ?_⟩, ⟨?_,
    ?_, ?_, ?_, ?_⟩⟩ <;> decide +kernel

theorem witness_LevelRequestNotJudged :
    (let s := plant; let src := console; let p := req 6 500 0; let n : Fin 96 := 6; let l := s.lbu.loads[n.val];
      s.hears src ∧ p.length = 4 ∧ (byteAt p 0).toNat = n.val ∧ l.cfg.valid = false) ∧
    (let s := plant; let src := console; let p := req 5 500 0; let n : Fin 96 := 5; let l := s.lbu.loads[n.val];
      s.hears src ∧ p.length = 4 ∧ (byteAt p 0).toNat = n.val ∧ l.cfg.valid = true ∧ l.cfg.type = LoadType.motor) ∧
    (let s := shedOne 8 plant; let src := console; let p := req 8 1 0; let n : Fin 96 := 8;
      let l := s.lbu.loads[n.val]; let asked := min (halfAt p 1).toNat 1000;
      s.hears src ∧ p.length = 4 ∧ (byteAt p 0).toNat = n.val ∧ l.cfg.valid = true ∧ l.cfg.type ≠ LoadType.motor ∧
      l.state = LoadState.shed ∧ 1 ≤ asked) ∧
    (let s := shedOne 7 plant; let src := console; let p := req 7 1 0; let n : Fin 96 := 7;
      let l := s.lbu.loads[n.val]; let asked := min (halfAt p 1).toNat 1000;
      s.hears src ∧ p.length = 4 ∧ (byteAt p 0).toNat = n.val ∧ l.cfg.valid = true ∧ l.cfg.type ≠ LoadType.motor ∧
      l.state = LoadState.shed ∧ 1 ≤ asked) ∧
    (let s := shedOne 7 plant; let src := console; let p := req 7 100 0; let n : Fin 96 := 7;
      let l := s.lbu.loads[n.val]; let asked := min (halfAt p 1).toNat 1000;
      s.hears src ∧ p.length = 4 ∧ (byteAt p 0).toNat = n.val ∧ l.cfg.valid = true ∧ l.cfg.type ≠ LoadType.motor ∧
      l.state = LoadState.shed ∧ 1 ≤ asked) ∧
    (let s := shedOne 7 plant; let src := console; let p := req 7 0 0; let n : Fin 96 := 7;
      let l := s.lbu.loads[n.val]; let asked := min (halfAt p 1).toNat 1000;
      s.hears src ∧ p.length = 4 ∧ (byteAt p 0).toNat = n.val ∧ l.cfg.valid = true ∧ l.cfg.type ≠ LoadType.motor ∧
      l.state = LoadState.shed ∧ asked = 0) := by
  refine ⟨?_, ?_, ?_, ?_, ?_, ?_⟩ <;> decide +kernel

theorem witness_SceneRecalled :
    (let s := staged; let n : Fin 128 := 3; let i : Fin 4 := 0; let first := (s.sx.scenes[n.val]).first;
      let count := (s.sx.scenes[n.val]).count; let run := (List.range count).map (first + ·);
      let slots := upd s.sx.slots i fun _ => some ⟨n, s.sx.nextRecall⟩;
      let sx : SceneExpander := { s.sx with
        slots := slots, nextRecall := s.sx.nextRecall + 1
        delayed := s.sx.delayed.filter fun d => d.slot != i && run.all fun k => d.load != (s.sx.action k).load };
      let src := stationZ; let number : Byte := 3;
      s.sx.scenes[n.val].valid = true ∧ s.slotFor n i ∧ (∀ d ∈ s.sx.delayed, s.sx.slots[↑d.slot].isSome = true) ∧
      s.canAnswer src ∧ number.toNat = n.val ∧
      (sx.delayed.length ≤ 128 ∧ ∀ k ∈ run, s.resends (s.sx.action k) ∨ (s.sx.action k).delay ≠ 0 ∧ sx.delayed.length
        + count ≤ 128)) ∧
    (let s := freeLine (scored asking (limited 450 900 (shedding staged))); let n : Fin 128 := 3; let i : Fin 4 := 0;
      let src := stationZ; let number : Byte := 3;
      s.sx.scenes[n.val].valid = true ∧ s.slotFor n i ∧ (∀ d ∈ s.sx.delayed, s.sx.slots[↑d.slot].isSome = true) ∧
      s.canAnswer src ∧ number.toNat = n.val) ∧
    (let s := freeLine (scored [⟨8, 1000, 0, 0⟩] (awaited 8 (shedding staged))); let n : Fin 128 := 3;
      let i : Fin 4 := 0; let src := stationZ; let number : Byte := 3;
      s.sx.scenes[n.val].valid = true ∧ s.slotFor n i ∧ (∀ d ∈ s.sx.delayed, s.sx.slots[↑d.slot].isSome = true) ∧
      s.canAnswer src ∧ number.toNat = n.val) ∧
    (let s := staged; let src := console; let p : List Byte := [127]; let n : Fin 128 := 127;
      let r := s.sx.scenes[n.val];
      s.hears src ∧ p.length = 1 ∧ (byteAt p 0).toNat = n.val ∧ r.valid = false) ∧
    (let s := staged; let src := console; let p : List Byte := [3]; let n : Fin 128 := 3; let r := s.sx.scenes[n.val];
      let a := s.sx.action r.first;
      s.hears src ∧ p.length = 1 ∧ (byteAt p 0).toNat = n.val ∧ r.valid = true ∧ r.count = 1 ∧
      (∀ i : Fin 4, s.sx.slots[i.val] = none) ∧ s.sx.delayed = [] ∧ a.delay ≠ 0) ∧
    (let s := restarting; let src := console; let p : List Byte := [3]; let n : Fin 128 := 3; let i : Fin 4 := 2;
      let r := s.sx.scenes[n.val]; let a := s.sx.action r.first;
      let kept := s.sx.delayed.filter fun d => d.slot != i && d.load != a.load;
      s.hears src ∧ p.length = 1 ∧ (byteAt p 0).toNat = n.val ∧ r.valid = true ∧ r.count = 1 ∧
      (∀ d ∈ s.sx.delayed, s.sx.slots[↑d.slot].isSome = true) ∧ a.delay ≠ 0 ∧ kept.length < 128 ∧
      (Option.any (fun x => x.scene == n) s.sx.slots[i.val] = true) ∧
      (∀ j : Fin 4, j < i → Option.any (fun x => x.scene == n) s.sx.slots[j.val] = false)) ∧
    (let s := freeSecond; let src := console; let p : List Byte := [3]; let n : Fin 128 := 3; let i : Fin 4 := 1;
      let r := s.sx.scenes[n.val]; let a := s.sx.action r.first;
      let kept := s.sx.delayed.filter fun d => d.slot != i && d.load != a.load;
      s.hears src ∧ p.length = 1 ∧ (byteAt p 0).toNat = n.val ∧ r.valid = true ∧ r.count = 1 ∧
      (∀ d ∈ s.sx.delayed, s.sx.slots[↑d.slot].isSome = true) ∧ a.delay ≠ 0 ∧ kept.length < 128 ∧
      (∀ j : Fin 4, Option.any (fun x => x.scene == n) s.sx.slots[j.val] = false) ∧
      (s.sx.slots[i.val].isNone = true ∧ ∀ j : Fin 4, j < i → s.sx.slots[j.val].isSome = true)) ∧
    (let s := crowded; let src := console; let p : List Byte := [3]; let n : Fin 128 := 3; let i : Fin 4 := 1;
      let r := s.sx.scenes[n.val]; let a := s.sx.action r.first;
      let kept := s.sx.delayed.filter fun d => d.slot != i && d.load != a.load; let old : SceneSlot := ⟨6, 2⟩;
      s.hears src ∧ p.length = 1 ∧ (byteAt p 0).toNat = n.val ∧ r.valid = true ∧ r.count = 1 ∧
      (∀ d ∈ s.sx.delayed, s.sx.slots[↑d.slot].isSome = true) ∧ a.delay ≠ 0 ∧ kept.length < 128 ∧
      (∀ j : Fin 4, Option.any (fun x => x.scene == n) s.sx.slots[j.val] = false) ∧
      (∀ j : Fin 4, s.sx.slots[j.val].isSome = true) ∧ s.sx.slots[i.val] = some old ∧
      (∀ j : Fin 4, s.sx.order i ≤ s.sx.order j) ∧ (∀ j : Fin 4, j < i → s.sx.order i < s.sx.order j)) ∧
    (let s := stagedNow; let src := console; let p : List Byte := [3]; let n : Fin 128 := 3;
      let r := s.sx.scenes[n.val]; let a := s.sx.action r.first;
      s.hears src ∧ p.length = 1 ∧ (byteAt p 0).toNat = n.val ∧ r.valid = true ∧ r.count = 1 ∧
      (∀ d ∈ s.sx.delayed, s.sx.slots[↑d.slot].isSome = true) ∧ a.delay = 0 ∧
      (∀ j : Fin 4, s.sx.slots[j.val] = none) ∧ a.load < 96 ∧ a.level < 65536 ∧ a.fade < 256) ∧
    (let s := brimming; let src := console; let p : List Byte := [3]; let n : Fin 128 := 3; let i : Fin 4 := 1;
      let r := s.sx.scenes[n.val]; let a := s.sx.action r.first;
      let kept := s.sx.delayed.filter fun d => d.slot != i && d.load != a.load; let m : Fin 96 := 8;
      s.hears src ∧ p.length = 1 ∧ (byteAt p 0).toNat = n.val ∧ r.valid = true ∧ r.count = 1 ∧
      (∀ d ∈ s.sx.delayed, s.sx.slots[↑d.slot].isSome = true) ∧ a.delay ≠ 0 ∧ 128 ≤ kept.length ∧
      (∀ j : Fin 4, Option.any (fun x => x.scene == n) s.sx.slots[j.val] = false) ∧
      (s.sx.slots[i.val].isNone = true ∧ ∀ j : Fin 4, j < i → s.sx.slots[j.val].isSome = true) ∧ a.load = m.val ∧
      1 ≤ a.level ∧ s.lbu.loads[m.val].cfg.valid = true ∧ s.lbu.loads[m.val].cfg.type = LoadType.switched ∧
      s.lbu.loads[m.val].state = LoadState.on) ∧
    (let s := plant; let src := console; let p := req 7 500 2; let n : Fin 96 := 7;
      s.hears src ∧ p.length = 4 ∧ (byteAt p 0).toNat = n.val) ∧
    (let s := scored mixed (lit 8 1000 100 staged); let n : Fin 128 := 3; let i : Fin 4 := 0;
      let first := (s.sx.scenes[n.val]).first; let count := (s.sx.scenes[n.val]).count;
      let run := (List.range count).map (first + ·); let slots := upd s.sx.slots i fun _ => some ⟨n, s.sx.nextRecall⟩;
      let sx : SceneExpander := { s.sx with
        slots := slots, nextRecall := s.sx.nextRecall + 1
        delayed := s.sx.delayed.filter fun d => d.slot != i && run.all fun k => d.load != (s.sx.action k).load };
      let src := console; let p : List Byte := [3];
      s.sx.scenes[n.val].valid = true ∧ s.slotFor n i ∧ (∀ d ∈ s.sx.delayed, s.sx.slots[↑d.slot].isSome = true) ∧
      s.hears src ∧ p.length = 1 ∧ (byteAt p 0).toNat = n.val ∧
      (sx.delayed.length ≤ 128 ∧ ∀ k ∈ run, s.resends (s.sx.action k) ∨ (s.sx.action k).delay ≠ 0 ∧ sx.delayed.length
        + count ≤ 128)) ∧
    (let s := scored mixed (lit 8 1000 100 staged); let n : Fin 128 := 3; let i : Fin 4 := 0;
      let first := (s.sx.scenes[n.val]).first; let count := (s.sx.scenes[n.val]).count;
      let run := (List.range count).map (first + ·); let slots := upd s.sx.slots i fun _ => some ⟨n, s.sx.nextRecall⟩;
      let sx : SceneExpander := { s.sx with
        slots := slots, nextRecall := s.sx.nextRecall + 1
        delayed := s.sx.delayed.filter fun d => d.slot != i && run.all fun k => d.load != (s.sx.action k).load };
      let src := station; let number : Byte := 3;
      s.sx.scenes[n.val].valid = true ∧ s.slotFor n i ∧ (∀ d ∈ s.sx.delayed, s.sx.slots[↑d.slot].isSome = true) ∧
      s.canAnswer src ∧ number.toNat = n.val ∧
      (sx.delayed.length ≤ 128 ∧ ∀ k ∈ run, s.resends (s.sx.action k) ∨ (s.sx.action k).delay ≠ 0 ∧ sx.delayed.length
        + count ≤ 128)) ∧
    (let s := scored mixed (lit 8 1000 100 restarting); let n : Fin 128 := 3; let i : Fin 4 := 2;
      let first := (s.sx.scenes[n.val]).first; let count := (s.sx.scenes[n.val]).count;
      let run := (List.range count).map (first + ·); let slots := upd s.sx.slots i fun _ => some ⟨n, s.sx.nextRecall⟩;
      let sx : SceneExpander := { s.sx with
        slots := slots, nextRecall := s.sx.nextRecall + 1
        delayed := s.sx.delayed.filter fun d => d.slot != i && run.all fun k => d.load != (s.sx.action k).load };
      let src := console; let p : List Byte := [3];
      s.sx.scenes[n.val].valid = true ∧ s.slotFor n i ∧ (∀ d ∈ s.sx.delayed, s.sx.slots[↑d.slot].isSome = true) ∧
      s.hears src ∧ p.length = 1 ∧ (byteAt p 0).toNat = n.val ∧
      (sx.delayed.length ≤ 128 ∧ ∀ k ∈ run, s.resends (s.sx.action k) ∨ (s.sx.action k).delay ≠ 0 ∧ sx.delayed.length
        + count ≤ 128)) ∧
    (let s := scored mixed (lit 8 1000 100 restarting); let n : Fin 128 := 3; let i : Fin 4 := 2;
      let first := (s.sx.scenes[n.val]).first; let count := (s.sx.scenes[n.val]).count;
      let run := (List.range count).map (first + ·); let slots := upd s.sx.slots i fun _ => some ⟨n, s.sx.nextRecall⟩;
      let sx : SceneExpander := { s.sx with
        slots := slots, nextRecall := s.sx.nextRecall + 1
        delayed := s.sx.delayed.filter fun d => d.slot != i && run.all fun k => d.load != (s.sx.action k).load };
      let src := station; let number : Byte := 3;
      s.sx.scenes[n.val].valid = true ∧ s.slotFor n i ∧ (∀ d ∈ s.sx.delayed, s.sx.slots[↑d.slot].isSome = true) ∧
      s.canAnswer src ∧ number.toNat = n.val ∧
      (sx.delayed.length ≤ 128 ∧ ∀ k ∈ run, s.resends (s.sx.action k) ∨ (s.sx.action k).delay ≠ 0 ∧ sx.delayed.length
        + count ≤ 128)) ∧
    (let s := scored mixed (lit 8 1000 100 freeSecond); let n : Fin 128 := 3; let i : Fin 4 := 1;
      let first := (s.sx.scenes[n.val]).first; let count := (s.sx.scenes[n.val]).count;
      let run := (List.range count).map (first + ·); let slots := upd s.sx.slots i fun _ => some ⟨n, s.sx.nextRecall⟩;
      let sx : SceneExpander := { s.sx with
        slots := slots, nextRecall := s.sx.nextRecall + 1
        delayed := s.sx.delayed.filter fun d => d.slot != i && run.all fun k => d.load != (s.sx.action k).load };
      let src := console; let p : List Byte := [3];
      s.sx.scenes[n.val].valid = true ∧ s.slotFor n i ∧ (∀ d ∈ s.sx.delayed, s.sx.slots[↑d.slot].isSome = true) ∧
      s.hears src ∧ p.length = 1 ∧ (byteAt p 0).toNat = n.val ∧
      (sx.delayed.length ≤ 128 ∧ ∀ k ∈ run, s.resends (s.sx.action k) ∨ (s.sx.action k).delay ≠ 0 ∧ sx.delayed.length
        + count ≤ 128)) ∧
    (let s := scored asking (limited 450 900 staged); let n : Fin 128 := 3; let i : Fin 4 := 0; let src := console;
      let p : List Byte := [3];
      s.sx.scenes[n.val].valid = true ∧ s.slotFor n i ∧ (∀ d ∈ s.sx.delayed, s.sx.slots[↑d.slot].isSome = true) ∧
      s.hears src ∧ p.length = 1 ∧ (byteAt p 0).toNat = n.val) ∧
    (let s := scored asking (limited 450 900 staged); let n : Fin 128 := 3; let i : Fin 4 := 0; let src := station;
      let number : Byte := 3;
      s.sx.scenes[n.val].valid = true ∧ s.slotFor n i ∧ (∀ d ∈ s.sx.delayed, s.sx.slots[↑d.slot].isSome = true) ∧
      s.canAnswer src ∧ number.toNat = n.val) ∧
    (let s := scored asking (limited 150 900 crowded); let n : Fin 128 := 3; let i : Fin 4 := 1; let src := console;
      let p : List Byte := [3];
      s.sx.scenes[n.val].valid = true ∧ s.slotFor n i ∧ (∀ d ∈ s.sx.delayed, s.sx.slots[↑d.slot].isSome = true) ∧
      s.hears src ∧ p.length = 1 ∧ (byteAt p 0).toNat = n.val) ∧
    (let s := scored asking nearlyFull; let n : Fin 128 := 3; let i : Fin 4 := 1; let src := console;
      let p : List Byte := [3];
      s.sx.scenes[n.val].valid = true ∧ s.slotFor n i ∧ (∀ d ∈ s.sx.delayed, s.sx.slots[↑d.slot].isSome = true) ∧
      s.hears src ∧ p.length = 1 ∧ (byteAt p 0).toNat = n.val) ∧
    (let s := staged; let src := station; let number : Byte := 127; let n : Fin 128 := 127;
      s.canAnswer src ∧ number.toNat = n.val ∧ s.sx.scenes[n.val].valid = false) := by
  refine ⟨⟨?_, ?_, ?_, ?_, ?_, ?_⟩, ⟨?_, ?_, ?_, ?_, ?_⟩, ⟨?_, ?_, ?_, ?_, ?_⟩, ⟨?_, ?_, ?_, ?_⟩, ⟨?_, ?_, ?_, ?_, ?_,
    ?_, ?_, ?_⟩, ⟨?_, ?_, ?_, ?_, ?_, ?_, ?_, ?_, ?_, ?_⟩, ⟨?_, ?_, ?_, ?_, ?_, ?_, ?_, ?_, ?_, ?_⟩, ⟨?_, ?_, ?_, ?_,
    ?_, ?_, ?_, ?_, ?_, ?_, ?_, ?_, ?_⟩, ⟨?_, ?_, ?_, ?_, ?_, ?_, ?_, ?_, ?_, ?_, ?_⟩, ⟨?_, ?_, ?_, ?_, ?_, ?_, ?_,
    ?_, ?_, ?_, ?_, ?_, ?_, ?_, ?_⟩, ⟨?_, ?_, ?_⟩, ⟨?_, ?_, ?_, ?_, ?_, ?_, ?_⟩, ⟨?_, ?_, ?_, ?_, ?_, ?_⟩, ⟨?_, ?_,
    ?_, ?_, ?_, ?_, ?_⟩, ⟨?_, ?_, ?_, ?_, ?_, ?_⟩, ⟨?_, ?_, ?_, ?_, ?_, ?_, ?_⟩, ⟨?_, ?_, ?_, ?_, ?_, ?_⟩, ⟨?_, ?_,
    ?_, ?_, ?_⟩, ⟨?_, ?_, ?_, ?_, ?_, ?_⟩, ⟨?_, ?_, ?_, ?_, ?_, ?_⟩, ⟨?_, ?_, ?_⟩⟩ <;> decide +kernel

theorem witness_ArmPasses :
    (let s := plant; let src := console; let ch : Byte := 0; let c : Fin 4 := 0; let d : Direction := .a;
      s.takesMotion src ch c ∧ s.ds.loopOpen = false ∧
      (∀ x : Fin 4, x ≠ c → s.ds.excludes c x = true → (s.chan x).state.active = false) ∧ s.ds.trip[c.val] = false ∧
      (∀ k ∈ (s.chan c).list d, condTrue s k = true) ∧ (s.chan c).state = ChanState.idle) ∧
    (let s := armed; let src := console; let ch : Byte := 0; let c : Fin 4 := 0; let d : Direction := .b;
      s.takesMotion src ch c ∧ s.ds.loopOpen = false ∧
      (∀ x : Fin 4, x ≠ c → s.ds.excludes c x = true → (s.chan x).state.active = false) ∧ s.ds.trip[c.val] = false ∧
      (∀ k ∈ (s.chan c).list d, condTrue s k = true) ∧ (s.chan c).state = ChanState.armed ∧
      (s.chan c).owner = some src.origin) := by
  refine ⟨?_, ?_⟩ <;> decide +kernel

theorem witness_ArmAndJogRefused :
    (let s := limited 299 5000 (manyLit plant); let src := console; let ch : Byte := 0; let c : Fin 4 := 0;
      let d : Direction := .a; let i : Instr := .jogA console 0;
      s.takesMotion src ch c ∧
      (d = Direction.a ∧ (i = Instr.armA src ch ∨ i = Instr.jogA src ch) ∨ d = Direction.b ∧ (i = Instr.armB src ch ∨
        i = Instr.jogB src ch)) ∧
      ((s.chan c).state = ChanState.idle ∨ (s.chan c).state = ChanState.armed ∧ (i = Instr.armA src ch ∨ i =
        Instr.armB src ch) ∧ (s.chan c).owner = some src.origin) ∧ s.ds.loopOpen = false ∧
      (∀ x : Fin 4, x ≠ c → s.ds.excludes c x = true → (s.chan x).state.active = false) ∧ s.ds.trip[c.val] = false ∧
      firstFalse s ((s.chan c).list d) = none ∧ (i = Instr.jogA src ch ∨ i = Instr.jogB src ch) ∧
      s.motorRefused c (s.chan c).cfg.motorLoad) ∧
    (let s := inFault plant; let src := console; let ch : Byte := 0; let c : Fin 4 := 0; let d : Direction := .a;
      let i : Instr := .armA console 0;
      s.takesMotion src ch c ∧
      (d = Direction.a ∧ (i = Instr.armA src ch ∨ i = Instr.jogA src ch) ∨ d = Direction.b ∧ (i = Instr.armB src ch ∨
        i = Instr.jogB src ch)) ∧ (s.chan c).state ≠ ChanState.idle ∧ (s.chan c).state ≠ ChanState.armed) ∧
    (let s := armed; let src := console; let ch : Byte := 0; let c : Fin 4 := 0; let d : Direction := .b;
      let i : Instr := .jogB console 0;
      s.takesMotion src ch c ∧
      (d = Direction.a ∧ (i = Instr.armA src ch ∨ i = Instr.jogA src ch) ∨ d = Direction.b ∧ (i = Instr.armB src ch ∨
        i = Instr.jogB src ch)) ∧ (s.chan c).state = ChanState.armed ∧
      (i = Instr.jogA src ch ∨ i = Instr.jogB src ch ∨ (s.chan c).owner ≠ some src.origin)) ∧
    (let s := loopCut plant; let src := console; let ch : Byte := 0; let c : Fin 4 := 0; let d : Direction := .a;
      let i : Instr := .jogA console 0;
      s.takesMotion src ch c ∧
      (d = Direction.a ∧ (i = Instr.armA src ch ∨ i = Instr.jogA src ch) ∨ d = Direction.b ∧ (i = Instr.armB src ch ∨
        i = Instr.jogB src ch)) ∧
      ((s.chan c).state = ChanState.idle ∨ (s.chan c).state = ChanState.armed ∧ (i = Instr.armA src ch ∨ i =
        Instr.armB src ch) ∧ (s.chan c).owner = some src.origin) ∧ s.ds.loopOpen = true) ∧
    (let s := rival plant; let src := console; let ch : Byte := 0; let c : Fin 4 := 0; let d : Direction := .a;
      let i : Instr := .armA console 0; let x : Fin 4 := 1;
      s.takesMotion src ch c ∧
      (d = Direction.a ∧ (i = Instr.armA src ch ∨ i = Instr.jogA src ch) ∨ d = Direction.b ∧ (i = Instr.armB src ch ∨
        i = Instr.jogB src ch)) ∧
      ((s.chan c).state = ChanState.idle ∨ (s.chan c).state = ChanState.armed ∧ (i = Instr.armA src ch ∨ i =
        Instr.armB src ch) ∧ (s.chan c).owner = some src.origin) ∧ s.ds.loopOpen = false ∧ x ≠ c ∧
      s.ds.excludes c x = true ∧ (s.chan x).state.active = true ∧
      (∀ y : Fin 4, y < x → y ≠ c → s.ds.excludes c y = true → (s.chan y).state.active = false)) ∧
    (let s := driveTripped plant; let src := console; let ch : Byte := 0; let c : Fin 4 := 0; let d : Direction := .a;
      let i : Instr := .armA console 0;
      s.takesMotion src ch c ∧
      (d = Direction.a ∧ (i = Instr.armA src ch ∨ i = Instr.jogA src ch) ∨ d = Direction.b ∧ (i = Instr.armB src ch ∨
        i = Instr.jogB src ch)) ∧
      ((s.chan c).state = ChanState.idle ∨ (s.chan c).state = ChanState.armed ∧ (i = Instr.armA src ch ∨ i =
        Instr.armB src ch) ∧ (s.chan c).owner = some src.origin) ∧ s.ds.loopOpen = false ∧
      (∀ x : Fin 4, x ≠ c → s.ds.excludes c x = true → (s.chan x).state.active = false) ∧ s.ds.trip[c.val] = true) ∧
    (let s := lowPoint plant; let src := console; let ch : Byte := 0; let c : Fin 4 := 0; let d : Direction := .a;
      let i : Instr := .jogA console 0; let k : Fin 48 := 3;
      s.takesMotion src ch c ∧
      (d = Direction.a ∧ (i = Instr.armA src ch ∨ i = Instr.jogA src ch) ∨ d = Direction.b ∧ (i = Instr.armB src ch ∨
        i = Instr.jogB src ch)) ∧
      ((s.chan c).state = ChanState.idle ∨ (s.chan c).state = ChanState.armed ∧ (i = Instr.armA src ch ∨ i =
        Instr.armB src ch) ∧ (s.chan c).owner = some src.origin) ∧ s.ds.loopOpen = false ∧
      (∀ x : Fin 4, x ≠ c → s.ds.excludes c x = true → (s.chan x).state.active = false) ∧ s.ds.trip[c.val] = false ∧
      firstFalse s ((s.chan c).list d) = some k) ∧
    (let s := tripped plant; let src := console; let ch : Byte := 0; let c : Fin 4 := 0; let d : Direction := .b;
      let i : Instr := .jogB console 0;
      s.takesMotion src ch c ∧
      (d = Direction.a ∧ (i = Instr.armA src ch ∨ i = Instr.jogA src ch) ∨ d = Direction.b ∧ (i = Instr.armB src ch ∨
        i = Instr.jogB src ch)) ∧
      ((s.chan c).state = ChanState.idle ∨ (s.chan c).state = ChanState.armed ∧ (i = Instr.armA src ch ∨ i =
        Instr.armB src ch) ∧ (s.chan c).owner = some src.origin) ∧ s.ds.loopOpen = false ∧
      (∀ x : Fin 4, x ≠ c → s.ds.excludes c x = true → (s.chan x).state.active = false) ∧ s.ds.trip[c.val] = false ∧
      firstFalse s ((s.chan c).list d) = none ∧ (i = Instr.jogA src ch ∨ i = Instr.jogB src ch) ∧
      s.motorRefused c (s.chan c).cfg.motorLoad) ∧
    (let s := full plant; let src := console; let ch : Byte := 0; let c : Fin 4 := 0; let d : Direction := .a;
      let i : Instr := .jogA console 0;
      s.takesMotion src ch c ∧
      (d = Direction.a ∧ (i = Instr.armA src ch ∨ i = Instr.jogA src ch) ∨ d = Direction.b ∧ (i = Instr.armB src ch ∨
        i = Instr.jogB src ch)) ∧
      ((s.chan c).state = ChanState.idle ∨ (s.chan c).state = ChanState.armed ∧ (i = Instr.armA src ch ∨ i =
        Instr.armB src ch) ∧ (s.chan c).owner = some src.origin) ∧ s.ds.loopOpen = false ∧
      (∀ x : Fin 4, x ≠ c → s.ds.excludes c x = true → (s.chan x).state.active = false) ∧ s.ds.trip[c.val] = false ∧
      firstFalse s ((s.chan c).list d) = none ∧ (i = Instr.jogA src ch ∨ i = Instr.jogB src ch) ∧
      s.motorRefused c (s.chan c).cfg.motorLoad) ∧
    (let s := driveTripped armed; let src := console; let ch : Byte := 0; let c : Fin 4 := 0; let d : Direction := .b;
      let i : Instr := .armB console 0;
      s.takesMotion src ch c ∧
      (d = Direction.a ∧ (i = Instr.armA src ch ∨ i = Instr.jogA src ch) ∨ d = Direction.b ∧ (i = Instr.armB src ch ∨
        i = Instr.jogB src ch)) ∧
      ((s.chan c).state = ChanState.idle ∨ (s.chan c).state = ChanState.armed ∧ (i = Instr.armA src ch ∨ i =
        Instr.armB src ch) ∧ (s.chan c).owner = some src.origin) ∧ s.ds.loopOpen = false ∧
      (∀ x : Fin 4, x ≠ c → s.ds.excludes c x = true → (s.chan x).state.active = false) ∧ s.ds.trip[c.val] = true) ∧
    (let s := lowPoint armed; let src := console; let ch : Byte := 0; let c : Fin 4 := 0; let d : Direction := .a;
      let i : Instr := .armA console 0; let k : Fin 48 := 3;
      s.takesMotion src ch c ∧
      (d = Direction.a ∧ (i = Instr.armA src ch ∨ i = Instr.jogA src ch) ∨ d = Direction.b ∧ (i = Instr.armB src ch ∨
        i = Instr.jogB src ch)) ∧
      ((s.chan c).state = ChanState.idle ∨ (s.chan c).state = ChanState.armed ∧ (i = Instr.armA src ch ∨ i =
        Instr.armB src ch) ∧ (s.chan c).owner = some src.origin) ∧ s.ds.loopOpen = false ∧
      (∀ x : Fin 4, x ≠ c → s.ds.excludes c x = true → (s.chan x).state.active = false) ∧ s.ds.trip[c.val] = false ∧
      firstFalse s ((s.chan c).list d) = some k) := by
  refine ⟨⟨?_, ?_, ?_, ?_, ?_, ?_, ?_, ?_, ?_⟩, ⟨?_, ?_, ?_, ?_⟩, ⟨?_, ?_, ?_, ?_⟩, ⟨?_, ?_, ?_, ?_⟩, ⟨?_, ?_, ?_, ?_,
    ?_, ?_, ?_, ?_⟩, ⟨?_, ?_, ?_, ?_, ?_, ?_⟩, ⟨?_, ?_, ?_, ?_, ?_, ?_, ?_⟩, ⟨?_, ?_, ?_, ?_, ?_, ?_, ?_, ?_, ?_⟩,
    ⟨?_, ?_, ?_, ?_, ?_, ?_, ?_, ?_, ?_⟩, ⟨?_, ?_, ?_, ?_, ?_, ?_⟩, ⟨?_, ?_, ?_, ?_, ?_, ?_, ?_⟩⟩ <;> decide +kernel

theorem witness_RunContinues :
    (let s := limited 1000 299 (manyLit armed); let src := console; let ch : Byte := 0; let c : Fin 4 := 0;
      let x := s.chan c;
      s.takesMotion src ch c ∧ x.owner = some src.origin ∧ x.state = ChanState.armed ∧
      firstFalse s (x.list x.direction) = none ∧ s.motorRefused c x.cfg.motorLoad) ∧
    (let s := motion .running .none .run plant; let src := console; let ch : Byte := 0; let c : Fin 4 := 0;
      let x := s.chan c;
      s.takesMotion src ch c ∧ x.owner = some src.origin ∧
      (x.state = ChanState.starting ∧ x.mode = MotionMode.run ∨ x.state = ChanState.running)) ∧
    (let s := lowPoint armed; let src := console; let ch : Byte := 0; let c : Fin 4 := 0; let x := s.chan c;
      let k : Fin 48 := 3;
      s.takesMotion src ch c ∧ x.owner = some src.origin ∧ x.state = ChanState.armed ∧
      firstFalse s (x.list x.direction) = some k) ∧
    (let s := tripped armed; let src := console; let ch : Byte := 0; let c : Fin 4 := 0; let x := s.chan c;
      s.takesMotion src ch c ∧ x.owner = some src.origin ∧ x.state = ChanState.armed ∧
      firstFalse s (x.list x.direction) = none ∧ s.motorRefused c x.cfg.motorLoad) ∧
    (let s := full armed; let src := console; let ch : Byte := 0; let c : Fin 4 := 0; let x := s.chan c;
      s.takesMotion src ch c ∧ x.owner = some src.origin ∧ x.state = ChanState.armed ∧
      firstFalse s (x.list x.direction) = none ∧ s.motorRefused c x.cfg.motorLoad) ∧
    (let s := foreignArmed; let src := console; let ch : Byte := 0; let c : Fin 4 := 0; let x := s.chan c;
      s.takesMotion src ch c ∧ x.owner ≠ some src.origin ∧
      (x.state = ChanState.armed ∨ x.state = ChanState.starting ∧ x.mode = MotionMode.run ∨ x.state =
        ChanState.running)) ∧
    (let s := motion .starting .sent .jog plant; let src := console; let ch : Byte := 0; let c : Fin 4 := 0;
      let x := s.chan c;
      s.takesMotion src ch c ∧
      (x.state = ChanState.idle ∨ x.state = ChanState.starting ∧ x.mode = MotionMode.jog ∨ x.state = ChanState.jogging
        ∨ x.state = ChanState.stopping ∨ x.state = ChanState.fault)) := by
  refine ⟨?_, ?_, ?_, ?_, ?_, ?_, ?_⟩ <;> decide +kernel

theorem witness_VerbsAtRest :
    (let s := armed; let src := console; let ch : Byte := 0; let c : Fin 4 := 0; let i : Instr := .cancel console 0;
      s.takesMotion src ch c ∧ i ∈ [Instr.runFinish src ch, Instr.stop src ch, Instr.cancel src ch] ∧
      (s.chan c).state = ChanState.armed ∧ (i = Instr.stop src ch ∨ (s.chan c).owner = some src.origin)) ∧
    (let s := foreignArmed; let src := console; let ch : Byte := 0; let c : Fin 4 := 0;
      let i : Instr := .runFinish console 0;
      s.takesMotion src ch c ∧ i ∈ [Instr.runFinish src ch, Instr.stop src ch, Instr.cancel src ch] ∧
      (s.chan c).state = ChanState.armed ∧ i ≠ Instr.stop src ch ∧ (s.chan c).owner ≠ some src.origin) ∧
    (let s := motion .stopping .none .run plant; let src := console; let ch : Byte := 0; let c : Fin 4 := 0;
      let i : Instr := .stop console 0;
      s.takesMotion src ch c ∧ i ∈ [Instr.runFinish src ch, Instr.stop src ch, Instr.cancel src ch] ∧
      ((s.chan c).state = ChanState.idle ∨ (s.chan c).state = ChanState.stopping ∨ (s.chan c).state =
        ChanState.fault)) ∧
    (let s := inFault plant; let src := console; let ch : Byte := 0; let c : Fin 4 := 0;
      s.takesMotion src ch c ∧ (s.chan c).state = ChanState.fault ∧
      (s.ds.loopOpen = false ∧ s.ds.trip[c.val] = false ∧ s.lbu.trip[↑s.lbu.loads[↑(s.chan
        c).cfg.motorLoad].cfg.branch] = false ∧ s.zp.segment = Segment.normal)) ∧
    (let s := inFault (tripped plant); let src := console; let ch : Byte := 0; let c : Fin 4 := 0;
      s.takesMotion src ch c ∧ (s.chan c).state = ChanState.fault ∧
      (¬(s.ds.loopOpen = false ∧ s.ds.trip[c.val] = false ∧ s.lbu.trip[↑s.lbu.loads[↑(s.chan
        c).cfg.motorLoad].cfg.branch] = false ∧ s.zp.segment = Segment.normal))) ∧
    (let s := plant; let src := console; let ch : Byte := 0; let c : Fin 4 := 0;
      s.takesMotion src ch c ∧ (s.chan c).state ≠ ChanState.fault) := by
  refine ⟨?_, ?_, ?_, ?_, ?_, ?_⟩ <;> decide +kernel

theorem witness_LevelRequestFalling :
    (let s := plant; let src := console; let p := req 7 0 2; let n : Fin 96 := 7; let l := s.lbu.loads[n.val];
      let asked := min (halfAt p 1).toNat 1000;
      let t := if 1 ≤ asked ∧ asked < l.cfg.minLevel then l.cfg.minLevel else asked;
      s.hears src ∧ p.length = 4 ∧ (byteAt p 0).toNat = n.val ∧ l.cfg.valid = true ∧ l.cfg.type = LoadType.dimmed ∧
      l.state ≠ LoadState.shed ∧ l.state = LoadState.off ∧ t = 0) ∧
    (let s := lit 7 500 50 plant; let src := console; let p := req 7 0 255; let n : Fin 96 := 7;
      let l := s.lbu.loads[n.val]; let asked := min (halfAt p 1).toNat 1000;
      let t := if 1 ≤ asked ∧ asked < l.cfg.minLevel then l.cfg.minLevel else asked; let fade := (byteAt p 3).toNat;
      s.hears src ∧ p.length = 4 ∧ (byteAt p 0).toNat = n.val ∧ l.cfg.valid = true ∧ l.cfg.type = LoadType.dimmed ∧
      l.state ≠ LoadState.shed ∧ l.state = LoadState.on ∧ t < l.committed ∧ fade ≠ 0) ∧
    (let s := lit 7 500 50 plant; let src := console; let p := req 7 499 0; let n : Fin 96 := 7;
      let l := s.lbu.loads[n.val]; let asked := min (halfAt p 1).toNat 1000;
      let t := if 1 ≤ asked ∧ asked < l.cfg.minLevel then l.cfg.minLevel else asked; let fade := (byteAt p 3).toNat;
      let u : State := { s with lbu := { s.lbu with loads := upd s.lbu.loads n fun l =>
        { l with granted := t, requested := t, lastFade := 0, due := true, committed := t, fade := .stopped
                 demand := (l.cfg.full * t + 999) / 1000 } } };
      s.hears src ∧ p.length = 4 ∧ (byteAt p 0).toNat = n.val ∧ l.cfg.valid = true ∧ l.cfg.type = LoadType.dimmed ∧
      l.state ≠ LoadState.shed ∧ l.state = LoadState.on ∧ t < l.committed ∧ fade = 0 ∧ t ≠ 0 ∧ u.shedFree) ∧
    (let s := lit 7 500 50 (threeShed plant); let src := console; let p := req 7 0 0; let n : Fin 96 := 7;
      let l := s.lbu.loads[n.val]; let asked := min (halfAt p 1).toNat 1000;
      let t := if 1 ≤ asked ∧ asked < l.cfg.minLevel then l.cfg.minLevel else asked; let fade := (byteAt p 3).toNat;
      let u : State := { s with lbu := { s.lbu with
        admission := s.lbu.admission.filter (· != n)
        loads := upd s.lbu.loads n fun l =>
          { l with granted := 0, requested := 0, lastFade := 0, due := true, committed := 0, fade := .stopped
                   state := .off, demand := 0 } } };
      s.hears src ∧ p.length = 4 ∧ (byteAt p 0).toNat = n.val ∧ l.cfg.valid = true ∧ l.cfg.type = LoadType.dimmed ∧
      l.state ≠ LoadState.shed ∧ l.state = LoadState.on ∧ t < l.committed ∧ fade = 0 ∧ t = 0 ∧ u.shedFree) ∧
    (let s := lit 7 500 50 plant; let src := console; let p := req 7 0 0; let n : Fin 96 := 7;
      let l := s.lbu.loads[n.val]; let asked := min (halfAt p 1).toNat 1000;
      let t := if 1 ≤ asked ∧ asked < l.cfg.minLevel then l.cfg.minLevel else asked; let fade := (byteAt p 3).toNat;
      let u : State := { s with lbu := { s.lbu with
        admission := s.lbu.admission.filter (· != n)
        loads := upd s.lbu.loads n fun l =>
          { l with granted := 0, requested := 0, lastFade := 0, due := true, committed := 0, fade := .stopped
                   state := .off, demand := 0 } } };
      s.hears src ∧ p.length = 4 ∧ (byteAt p 0).toNat = n.val ∧ l.cfg.valid = true ∧ l.cfg.type = LoadType.dimmed ∧
      l.state ≠ LoadState.shed ∧ l.state = LoadState.on ∧ t < l.committed ∧ fade = 0 ∧ t = 0 ∧ u.shedFree) ∧
    (let s := lit 7 500 50 (headShed plant); let src := console; let p := req 7 0 0; let n : Fin 96 := 7;
      let l := s.lbu.loads[n.val]; let asked := min (halfAt p 1).toNat 1000;
      let t := if 1 ≤ asked ∧ asked < l.cfg.minLevel then l.cfg.minLevel else asked; let fade := (byteAt p 3).toNat;
      let u : State := { s with lbu := { s.lbu with
        admission := s.lbu.admission.filter (· != n)
        loads := upd s.lbu.loads n fun l =>
          { l with granted := 0, requested := 0, lastFade := 0, due := true, committed := 0, fade := .stopped
                   state := .off, demand := 0 } } };
      s.hears src ∧ p.length = 4 ∧ (byteAt p 0).toNat = n.val ∧ l.cfg.valid = true ∧ l.cfg.type = LoadType.dimmed ∧
      l.state ≠ LoadState.shed ∧ l.state = LoadState.on ∧ t < l.committed ∧ fade = 0 ∧ t = 0 ∧ u.shedFree) := by
  refine ⟨⟨?_, ?_, ?_, ?_, ?_, ?_, ?_, ?_⟩, ⟨?_, ?_, ?_, ?_, ?_, ?_, ?_, ?_, ?_⟩, ⟨?_, ?_, ?_, ?_, ?_, ?_, ?_, ?_, ?_,
    ?_, ?_⟩, ⟨?_, ?_, ?_, ?_, ?_, ?_, ?_, ?_, ?_, ?_, ?_⟩, ⟨?_, ?_, ?_, ?_, ?_, ?_, ?_, ?_, ?_, ?_, ?_⟩, ⟨?_, ?_, ?_,
    ?_, ?_, ?_, ?_, ?_, ?_, ?_, ?_⟩⟩ <;> decide +kernel

theorem witness_LevelRequestRising :
    (let s := lit 7 500 50 plant; let src := console; let p := req 7 1000 2; let n : Fin 96 := 7;
      let l := s.lbu.loads[n.val]; let asked := min (halfAt p 1).toNat 1000;
      let t := if 1 ≤ asked ∧ asked < l.cfg.minLevel then l.cfg.minLevel else asked;
      s.hears src ∧ p.length = 4 ∧ (byteAt p 0).toNat = n.val ∧ l.cfg.valid = true ∧ l.cfg.type = LoadType.dimmed ∧
      l.committed ≤ t ∧ (l.state = LoadState.off → t ≠ 0) ∧
      (l.state = LoadState.on ∨ l.state = LoadState.off ∧ s.lbu.trip[↑l.cfg.branch] = false) ∧
      (l.cfg.full = 0 ∨ s.lbu.fits n ((l.cfg.full * t + 999) / 1000) = true) ∧
      (l.state = LoadState.off → s.markOpen n)) ∧
    (let s := plant; let src := console; let p := req 7 1 0; let n : Fin 96 := 7; let l := s.lbu.loads[n.val];
      let asked := min (halfAt p 1).toNat 1000;
      let t := if 1 ≤ asked ∧ asked < l.cfg.minLevel then l.cfg.minLevel else asked;
      s.hears src ∧ p.length = 4 ∧ (byteAt p 0).toNat = n.val ∧ l.cfg.valid = true ∧ l.cfg.type = LoadType.dimmed ∧
      l.committed ≤ t ∧ (l.state = LoadState.off → t ≠ 0) ∧
      (l.state = LoadState.on ∨ l.state = LoadState.off ∧ s.lbu.trip[↑l.cfg.branch] = false) ∧
      (l.cfg.full = 0 ∨ s.lbu.fits n ((l.cfg.full * t + 999) / 1000) = true) ∧
      (l.state = LoadState.off → s.markOpen n)) ∧
    (let s := awaited 7 (shedding plant); let src := console; let p := req 7 1 0; let n : Fin 96 := 7;
      let l := s.lbu.loads[n.val]; let asked := min (halfAt p 1).toNat 1000;
      let t := if 1 ≤ asked ∧ asked < l.cfg.minLevel then l.cfg.minLevel else asked;
      s.hears src ∧ p.length = 4 ∧ (byteAt p 0).toNat = n.val ∧ l.cfg.valid = true ∧ l.cfg.type = LoadType.dimmed ∧
      l.committed ≤ t ∧ (l.state = LoadState.off → t ≠ 0) ∧
      (l.state = LoadState.on ∨ l.state = LoadState.off ∧ s.lbu.trip[↑l.cfg.branch] = false) ∧
      (l.cfg.full = 0 ∨ s.lbu.fits n ((l.cfg.full * t + 999) / 1000) = true) ∧
      (l.state = LoadState.off → s.markOpen n)) ∧
    (let s := awaited 7 (awaited 9 (shedding plant)); let src := console; let p := req 7 700 3; let n : Fin 96 := 7;
      let l := s.lbu.loads[n.val]; let asked := min (halfAt p 1).toNat 1000;
      let t := if 1 ≤ asked ∧ asked < l.cfg.minLevel then l.cfg.minLevel else asked;
      s.hears src ∧ p.length = 4 ∧ (byteAt p 0).toNat = n.val ∧ l.cfg.valid = true ∧ l.cfg.type = LoadType.dimmed ∧
      l.committed ≤ t ∧ (l.state = LoadState.off → t ≠ 0) ∧
      (l.state = LoadState.on ∨ l.state = LoadState.off ∧ s.lbu.trip[↑l.cfg.branch] = false) ∧
      (l.cfg.full = 0 ∨ s.lbu.fits n ((l.cfg.full * t + 999) / 1000) = true) ∧
      (l.state = LoadState.off → s.markOpen n)) ∧
    (let s := awaited 7 (freeLine (shedding plant)); let src := console; let p := req 7 1 0; let n : Fin 96 := 7;
      let l := s.lbu.loads[n.val]; let asked := min (halfAt p 1).toNat 1000;
      let t := if 1 ≤ asked ∧ asked < l.cfg.minLevel then l.cfg.minLevel else asked;
      s.hears src ∧ p.length = 4 ∧ (byteAt p 0).toNat = n.val ∧ l.cfg.valid = true ∧ l.cfg.type = LoadType.dimmed ∧
      l.committed ≤ t ∧ (l.state = LoadState.off → t ≠ 0) ∧
      (l.state = LoadState.on ∨ l.state = LoadState.off ∧ s.lbu.trip[↑l.cfg.branch] = false) ∧
      (l.cfg.full = 0 ∨ s.lbu.fits n ((l.cfg.full * t + 999) / 1000) = true) ∧
      (l.state = LoadState.off → s.markOpen n)) ∧
    (let s := tripped plant; let src := console; let p := req 7 500 0; let n : Fin 96 := 7;
      let l := s.lbu.loads[n.val]; let asked := min (halfAt p 1).toNat 1000;
      let t := if 1 ≤ asked ∧ asked < l.cfg.minLevel then l.cfg.minLevel else asked;
      s.hears src ∧ p.length = 4 ∧ (byteAt p 0).toNat = n.val ∧ l.cfg.valid = true ∧ l.cfg.type = LoadType.dimmed ∧
      l.committed ≤ t ∧ (l.state = LoadState.off → t ≠ 0) ∧ l.state = LoadState.off ∧
      s.lbu.trip[↑l.cfg.branch] = true) ∧
    (let s := limited 49 2000 (lit 7 500 50 plant); let src := console; let p := req 7 1000 0; let n : Fin 96 := 7;
      let l := s.lbu.loads[n.val]; let asked := min (halfAt p 1).toNat 1000;
      let t := if 1 ≤ asked ∧ asked < l.cfg.minLevel then l.cfg.minLevel else asked;
      let room := min (s.lbu.effBranch l.cfg.branch - (s.lbu.commit l.cfg.branch - l.demand))
        (s.lbu.effTotal - (s.lbu.total - l.demand));
      let g := min t (room * 1000 / l.cfg.full);
      s.hears src ∧ p.length = 4 ∧ (byteAt p 0).toNat = n.val ∧ l.cfg.valid = true ∧ l.cfg.type = LoadType.dimmed ∧
      l.committed ≤ t ∧ (l.state = LoadState.off → t ≠ 0) ∧
      (l.state = LoadState.on ∨ l.state = LoadState.off ∧ s.lbu.trip[↑l.cfg.branch] = false) ∧
      (¬(l.cfg.full = 0 ∨ s.lbu.fits n ((l.cfg.full * t + 999) / 1000) = true)) ∧
      (g < l.cfg.minLevel ∨ g < l.committed)) ∧
    (let s := limited 50 2000 (lit 7 500 50 plant); let src := console; let p := req 7 501 0; let n : Fin 96 := 7;
      let l := s.lbu.loads[n.val]; let asked := min (halfAt p 1).toNat 1000;
      let t := if 1 ≤ asked ∧ asked < l.cfg.minLevel then l.cfg.minLevel else asked;
      let room := min (s.lbu.effBranch l.cfg.branch - (s.lbu.commit l.cfg.branch - l.demand))
        (s.lbu.effTotal - (s.lbu.total - l.demand));
      let g := min t (room * 1000 / l.cfg.full);
      s.hears src ∧ p.length = 4 ∧ (byteAt p 0).toNat = n.val ∧ l.cfg.valid = true ∧ l.cfg.type = LoadType.dimmed ∧
      l.committed ≤ t ∧ (l.state = LoadState.off → t ≠ 0) ∧
      (l.state = LoadState.on ∨ l.state = LoadState.off ∧ s.lbu.trip[↑l.cfg.branch] = false) ∧
      (¬(l.cfg.full = 0 ∨ s.lbu.fits n ((l.cfg.full * t + 999) / 1000) = true)) ∧ l.cfg.minLevel ≤ g ∧
      l.committed ≤ g ∧ (l.state = LoadState.off → s.markOpen n)) ∧
    (let s := limited 150 2000 (essential (plant)); let src := console; let p := req 7 501 0; let n : Fin 96 := 7;
      let l := s.lbu.loads[n.val]; let asked := min (halfAt p 1).toNat 1000;
      let t := if 1 ≤ asked ∧ asked < l.cfg.minLevel then l.cfg.minLevel else asked;
      let room := min (s.lbu.effBranch l.cfg.branch - (s.lbu.commit l.cfg.branch - l.demand))
        (s.lbu.effTotal - (s.lbu.total - l.demand));
      let g := min t (room * 1000 / l.cfg.full);
      s.hears src ∧ p.length = 4 ∧ (byteAt p 0).toNat = n.val ∧ l.cfg.valid = true ∧ l.cfg.type = LoadType.dimmed ∧
      l.committed ≤ t ∧ (l.state = LoadState.off → t ≠ 0) ∧
      (l.state = LoadState.on ∨ l.state = LoadState.off ∧ s.lbu.trip[↑l.cfg.branch] = false) ∧
      (¬(l.cfg.full = 0 ∨ s.lbu.fits n ((l.cfg.full * t + 999) / 1000) = true)) ∧ l.cfg.minLevel ≤ g ∧
      l.committed ≤ g ∧ (l.state = LoadState.off → s.markOpen n)) ∧
    (let s := limited 150 2000 (awaited 7 (freeLine (shedding plant))); let src := console; let p := req 7 501 3;
      let n : Fin 96 := 7; let l := s.lbu.loads[n.val]; let asked := min (halfAt p 1).toNat 1000;
      let t := if 1 ≤ asked ∧ asked < l.cfg.minLevel then l.cfg.minLevel else asked;
      let room := min (s.lbu.effBranch l.cfg.branch - (s.lbu.commit l.cfg.branch - l.demand))
        (s.lbu.effTotal - (s.lbu.total - l.demand));
      let g := min t (room * 1000 / l.cfg.full);
      s.hears src ∧ p.length = 4 ∧ (byteAt p 0).toNat = n.val ∧ l.cfg.valid = true ∧ l.cfg.type = LoadType.dimmed ∧
      l.committed ≤ t ∧ (l.state = LoadState.off → t ≠ 0) ∧
      (l.state = LoadState.on ∨ l.state = LoadState.off ∧ s.lbu.trip[↑l.cfg.branch] = false) ∧
      (¬(l.cfg.full = 0 ∨ s.lbu.fits n ((l.cfg.full * t + 999) / 1000) = true)) ∧ l.cfg.minLevel ≤ g ∧
      l.committed ≤ g ∧ (l.state = LoadState.off → s.markOpen n)) ∧
    (let s := limited 9 2000 (plant); let src := console; let p := req 7 501 0; let n : Fin 96 := 7;
      let l := s.lbu.loads[n.val]; let asked := min (halfAt p 1).toNat 1000;
      let t := if 1 ≤ asked ∧ asked < l.cfg.minLevel then l.cfg.minLevel else asked;
      let room := min (s.lbu.effBranch l.cfg.branch - (s.lbu.commit l.cfg.branch - l.demand))
        (s.lbu.effTotal - (s.lbu.total - l.demand));
      let g := min t (room * 1000 / l.cfg.full);
      s.hears src ∧ p.length = 4 ∧ (byteAt p 0).toNat = n.val ∧ l.cfg.valid = true ∧ l.cfg.type = LoadType.dimmed ∧
      l.committed ≤ t ∧ (l.state = LoadState.off → t ≠ 0) ∧
      (l.state = LoadState.on ∨ l.state = LoadState.off ∧ s.lbu.trip[↑l.cfg.branch] = false) ∧
      (¬(l.cfg.full = 0 ∨ s.lbu.fits n ((l.cfg.full * t + 999) / 1000) = true)) ∧
      (g < l.cfg.minLevel ∨ g < l.committed)) ∧
    (let s := limited 0 0 (drawless (essential plant)); let src := console; let p := req 7 501 0; let n : Fin 96 := 7;
      let l := s.lbu.loads[n.val]; let asked := min (halfAt p 1).toNat 1000;
      let t := if 1 ≤ asked ∧ asked < l.cfg.minLevel then l.cfg.minLevel else asked;
      s.hears src ∧ p.length = 4 ∧ (byteAt p 0).toNat = n.val ∧ l.cfg.valid = true ∧ l.cfg.type = LoadType.dimmed ∧
      l.committed ≤ t ∧ (l.state = LoadState.off → t ≠ 0) ∧
      (l.state = LoadState.on ∨ l.state = LoadState.off ∧ s.lbu.trip[↑l.cfg.branch] = false) ∧
      (l.cfg.full = 0 ∨ s.lbu.fits n ((l.cfg.full * t + 999) / 1000) = true) ∧
      (l.state = LoadState.off → s.markOpen n)) ∧
    (let s := limited 0 0 (drawless (lit 7 400 0 (essential plant))); let src := console; let p := req 7 501 0;
      let n : Fin 96 := 7; let l := s.lbu.loads[n.val]; let asked := min (halfAt p 1).toNat 1000;
      let t := if 1 ≤ asked ∧ asked < l.cfg.minLevel then l.cfg.minLevel else asked;
      s.hears src ∧ p.length = 4 ∧ (byteAt p 0).toNat = n.val ∧ l.cfg.valid = true ∧ l.cfg.type = LoadType.dimmed ∧
      l.committed ≤ t ∧ (l.state = LoadState.off → t ≠ 0) ∧
      (l.state = LoadState.on ∨ l.state = LoadState.off ∧ s.lbu.trip[↑l.cfg.branch] = false) ∧
      (l.cfg.full = 0 ∨ s.lbu.fits n ((l.cfg.full * t + 999) / 1000) = true) ∧
      (l.state = LoadState.off → s.markOpen n)) := by
  refine ⟨⟨?_, ?_, ?_, ?_, ?_, ?_, ?_, ?_, ?_, ?_⟩, ⟨?_, ?_, ?_, ?_, ?_, ?_, ?_, ?_, ?_, ?_⟩, ⟨?_, ?_, ?_, ?_, ?_, ?_,
    ?_, ?_, ?_, ?_⟩, ⟨?_, ?_, ?_, ?_, ?_, ?_, ?_, ?_, ?_, ?_⟩, ⟨?_, ?_, ?_, ?_, ?_, ?_, ?_, ?_, ?_, ?_⟩, ⟨?_, ?_, ?_,
    ?_, ?_, ?_, ?_, ?_, ?_⟩, ⟨?_, ?_, ?_, ?_, ?_, ?_, ?_, ?_, ?_, ?_⟩, ⟨?_, ?_, ?_, ?_, ?_, ?_, ?_, ?_, ?_, ?_, ?_,
    ?_⟩, ⟨?_, ?_, ?_, ?_, ?_, ?_, ?_, ?_, ?_, ?_, ?_, ?_⟩, ⟨?_, ?_, ?_, ?_, ?_, ?_, ?_, ?_, ?_, ?_, ?_, ?_⟩, ⟨?_, ?_,
    ?_, ?_, ?_, ?_, ?_, ?_, ?_, ?_⟩, ⟨?_, ?_, ?_, ?_, ?_, ?_, ?_, ?_, ?_, ?_⟩, ⟨?_, ?_, ?_, ?_, ?_, ?_, ?_, ?_, ?_,
    ?_⟩⟩ <;> decide +kernel

theorem witness_LevelRequestSwitched :
    (let s := lit 8 1000 100 plant; let src := console; let p := req 8 1 0; let n : Fin 96 := 8;
      let l := s.lbu.loads[n.val]; let asked := min (halfAt p 1).toNat 1000;
      s.hears src ∧ p.length = 4 ∧ (byteAt p 0).toNat = n.val ∧ l.cfg.valid = true ∧ l.cfg.type = LoadType.switched ∧
      (l.state = LoadState.on ∨ l.state = LoadState.inrush) ∧ 1 ≤ asked) ∧
    (let s := plant; let src := console; let p := req 8 0 0; let n : Fin 96 := 8; let l := s.lbu.loads[n.val];
      let asked := min (halfAt p 1).toNat 1000;
      s.hears src ∧ p.length = 4 ∧ (byteAt p 0).toNat = n.val ∧ l.cfg.valid = true ∧ l.cfg.type = LoadType.switched ∧
      l.state = LoadState.off ∧ asked = 0) ∧
    (let s := tripped plant; let src := console; let p := req 8 1 0; let n : Fin 96 := 8; let l := s.lbu.loads[n.val];
      let asked := min (halfAt p 1).toNat 1000;
      s.hears src ∧ p.length = 4 ∧ (byteAt p 0).toNat = n.val ∧ l.cfg.valid = true ∧ l.cfg.type = LoadType.switched ∧
      l.state = LoadState.off ∧ 1 ≤ asked ∧ s.lbu.trip[↑l.cfg.branch] = true) ∧
    (let s := limited 300 300 plant; let src := console; let p := req 8 1 0; let n : Fin 96 := 8;
      let l := s.lbu.loads[n.val]; let asked := min (halfAt p 1).toNat 1000;
      s.hears src ∧ p.length = 4 ∧ (byteAt p 0).toNat = n.val ∧ l.cfg.valid = true ∧ l.cfg.type = LoadType.switched ∧
      l.state = LoadState.off ∧ 1 ≤ asked ∧ s.lbu.trip[↑l.cfg.branch] = false ∧ s.markOpen n ∧
      s.lbu.fits n (if l.cfg.inrushTime = 0 then l.cfg.full else l.cfg.inrush) = true) ∧
    (let s := atOnce 8 (limited 100 300 plant); let src := console; let p := req 8 1 0; let n : Fin 96 := 8;
      let l := s.lbu.loads[n.val]; let asked := min (halfAt p 1).toNat 1000;
      s.hears src ∧ p.length = 4 ∧ (byteAt p 0).toNat = n.val ∧ l.cfg.valid = true ∧ l.cfg.type = LoadType.switched ∧
      l.state = LoadState.off ∧ 1 ≤ asked ∧ s.lbu.trip[↑l.cfg.branch] = false ∧ s.markOpen n ∧
      s.lbu.fits n (if l.cfg.inrushTime = 0 then l.cfg.full else l.cfg.inrush) = true) ∧
    (let s := atOnce 8 (awaited 8 (shedding plant)); let src := console; let p := req 8 1 0; let n : Fin 96 := 8;
      let l := s.lbu.loads[n.val]; let asked := min (halfAt p 1).toNat 1000;
      s.hears src ∧ p.length = 4 ∧ (byteAt p 0).toNat = n.val ∧ l.cfg.valid = true ∧ l.cfg.type = LoadType.switched ∧
      l.state = LoadState.off ∧ 1 ≤ asked ∧ s.lbu.trip[↑l.cfg.branch] = false ∧ s.markOpen n ∧
      s.lbu.fits n (if l.cfg.inrushTime = 0 then l.cfg.full else l.cfg.inrush) = true) ∧
    (let s := rushing 8 plant; let src := console; let p := req 8 0 0; let n : Fin 96 := 8;
      let l := s.lbu.loads[n.val]; let asked := min (halfAt p 1).toNat 1000;
      let u : State := { s with lbu := { s.lbu with
        admission := s.lbu.admission.filter (· != n)
        loads := upd s.lbu.loads n fun l =>
          { l with state := .off, demand := 0, granted := 0, committed := 0, requested := 0, lastFade := 0
                   inrushTimer := .stopped, due := true } } };
      s.hears src ∧ p.length = 4 ∧ (byteAt p 0).toNat = n.val ∧ l.cfg.valid = true ∧ l.cfg.type = LoadType.switched ∧
      (l.state = LoadState.on ∨ l.state = LoadState.inrush) ∧ asked = 0 ∧ u.shedFree) ∧
    (let s := manyShed (rushing 8 plant); let src := console; let p := req 8 0 0; let n : Fin 96 := 8;
      let l := s.lbu.loads[n.val]; let asked := min (halfAt p 1).toNat 1000;
      let u : State := { s with lbu := { s.lbu with
        admission := s.lbu.admission.filter (· != n)
        loads := upd s.lbu.loads n fun l =>
          { l with state := .off, demand := 0, granted := 0, committed := 0, requested := 0, lastFade := 0
                   inrushTimer := .stopped, due := true } } };
      s.hears src ∧ p.length = 4 ∧ (byteAt p 0).toNat = n.val ∧ l.cfg.valid = true ∧ l.cfg.type = LoadType.switched ∧
      (l.state = LoadState.on ∨ l.state = LoadState.inrush) ∧ asked = 0 ∧ u.shedFree) := by
  refine ⟨⟨?_, ?_, ?_, ?_, ?_, ?_, ?_⟩, ⟨?_, ?_, ?_, ?_, ?_, ?_, ?_⟩, ⟨?_, ?_, ?_, ?_, ?_, ?_, ?_, ?_⟩, ⟨?_, ?_, ?_,
    ?_, ?_, ?_, ?_, ?_, ?_, ?_⟩, ⟨?_, ?_, ?_, ?_, ?_, ?_, ?_, ?_, ?_, ?_⟩, ⟨?_, ?_, ?_, ?_, ?_, ?_, ?_, ?_, ?_, ?_⟩,
    ⟨?_, ?_, ?_, ?_, ?_, ?_, ?_, ?_⟩, ⟨?_, ?_, ?_, ?_, ?_, ?_, ?_, ?_⟩⟩ <;> decide +kernel

theorem witness_ShedWalkMakesRoom :
    (let s := limited 450 5000 (manyLit plant); let src := console; let p := req 8 1000 0; let n : Fin 96 := 8;
      let l := s.lbu.loads[n.val]; let asked := min (halfAt p 1).toNat 1000; let w := s.roomFor n l.cfg.asksFor none;
      s.hears src ∧ p.length = 4 ∧ (byteAt p 0).toNat = n.val ∧ l.cfg.valid = true ∧ l.cfg.type = LoadType.switched ∧
      l.state = LoadState.off ∧ 1 ≤ asked ∧ s.lbu.trip[↑l.cfg.branch] = false ∧ s.lbu.fits n l.cfg.asksFor = false ∧
      s.lbu.walkable ↑l.cfg.priority ∧ w.lbu.fits n l.cfg.asksFor = true ∧ s.markOpen n) ∧
    (let s := limited 1000 700 (manyLit plant); let src := console; let p := req 8 1000 0; let n : Fin 96 := 8;
      let l := s.lbu.loads[n.val]; let asked := min (halfAt p 1).toNat 1000; let w := s.roomFor n l.cfg.asksFor none;
      s.hears src ∧ p.length = 4 ∧ (byteAt p 0).toNat = n.val ∧ l.cfg.valid = true ∧ l.cfg.type = LoadType.switched ∧
      l.state = LoadState.off ∧ 1 ≤ asked ∧ s.lbu.trip[↑l.cfg.branch] = false ∧ s.lbu.fits n l.cfg.asksFor = false ∧
      s.lbu.walkable ↑l.cfg.priority ∧ w.lbu.fits n l.cfg.asksFor = true ∧ s.markOpen n) ∧
    (let s := limited 1000 600 (manyLit plant); let src := console; let p := req 8 1000 0; let n : Fin 96 := 8;
      let l := s.lbu.loads[n.val]; let asked := min (halfAt p 1).toNat 1000; let w := s.roomFor n l.cfg.asksFor none;
      s.hears src ∧ p.length = 4 ∧ (byteAt p 0).toNat = n.val ∧ l.cfg.valid = true ∧ l.cfg.type = LoadType.switched ∧
      l.state = LoadState.off ∧ 1 ≤ asked ∧ s.lbu.trip[↑l.cfg.branch] = false ∧ s.lbu.fits n l.cfg.asksFor = false ∧
      s.lbu.walkable ↑l.cfg.priority ∧ w.lbu.fits n l.cfg.asksFor = true ∧ s.markOpen n) ∧
    (let s := freeLine (awaited 8 (shedding (limited 450 650 (manyLit plant)))); let src := console;
      let p := req 8 1000 0; let n : Fin 96 := 8; let l := s.lbu.loads[n.val];
      let asked := min (halfAt p 1).toNat 1000; let w := s.roomFor n l.cfg.asksFor none;
      s.hears src ∧ p.length = 4 ∧ (byteAt p 0).toNat = n.val ∧ l.cfg.valid = true ∧ l.cfg.type = LoadType.switched ∧
      l.state = LoadState.off ∧ 1 ≤ asked ∧ s.lbu.trip[↑l.cfg.branch] = false ∧ s.lbu.fits n l.cfg.asksFor = false ∧
      s.lbu.walkable ↑l.cfg.priority ∧ w.lbu.fits n l.cfg.asksFor = true ∧ s.markOpen n) ∧
    (let s := limited 299 5000 (manyLit plant); let src := console; let p := req 8 1000 0; let n : Fin 96 := 8;
      let l := s.lbu.loads[n.val]; let asked := min (halfAt p 1).toNat 1000; let w := s.roomFor n l.cfg.asksFor none;
      s.hears src ∧ p.length = 4 ∧ (byteAt p 0).toNat = n.val ∧ l.cfg.valid = true ∧ l.cfg.type = LoadType.switched ∧
      l.state = LoadState.off ∧ 1 ≤ asked ∧ s.lbu.trip[↑l.cfg.branch] = false ∧ s.lbu.fits n l.cfg.asksFor = false ∧
      s.lbu.walkable ↑l.cfg.priority ∧ w.lbu.fits n l.cfg.asksFor = false) ∧
    (let s := limited 1000 299 (manyLit plant); let src := console; let p := req 8 1000 0; let n : Fin 96 := 8;
      let l := s.lbu.loads[n.val]; let asked := min (halfAt p 1).toNat 1000; let w := s.roomFor n l.cfg.asksFor none;
      s.hears src ∧ p.length = 4 ∧ (byteAt p 0).toNat = n.val ∧ l.cfg.valid = true ∧ l.cfg.type = LoadType.switched ∧
      l.state = LoadState.off ∧ 1 ≤ asked ∧ s.lbu.trip[↑l.cfg.branch] = false ∧ s.lbu.fits n l.cfg.asksFor = false ∧
      s.lbu.walkable ↑l.cfg.priority ∧ w.lbu.fits n l.cfg.asksFor = false) ∧
    (let s := tight plant; let src := console; let p := req 8 1000 0; let n : Fin 96 := 8;
      let l := s.lbu.loads[n.val]; let asked := min (halfAt p 1).toNat 1000; let w := s.roomFor n l.cfg.asksFor none;
      s.hears src ∧ p.length = 4 ∧ (byteAt p 0).toNat = n.val ∧ l.cfg.valid = true ∧ l.cfg.type = LoadType.switched ∧
      l.state = LoadState.off ∧ 1 ≤ asked ∧ s.lbu.trip[↑l.cfg.branch] = false ∧ s.lbu.fits n l.cfg.asksFor = false ∧
      s.lbu.walkable ↑l.cfg.priority ∧ w.lbu.fits n l.cfg.asksFor = true ∧ s.markOpen n) ∧
    (let s := atOnce 8 (limited 100 2000 (lit 9 1000 100 plant)); let src := console; let p := req 8 1000 0;
      let n : Fin 96 := 8; let l := s.lbu.loads[n.val]; let asked := min (halfAt p 1).toNat 1000;
      let w := s.roomFor n l.cfg.asksFor none;
      s.hears src ∧ p.length = 4 ∧ (byteAt p 0).toNat = n.val ∧ l.cfg.valid = true ∧ l.cfg.type = LoadType.switched ∧
      l.state = LoadState.off ∧ 1 ≤ asked ∧ s.lbu.trip[↑l.cfg.branch] = false ∧ s.lbu.fits n l.cfg.asksFor = false ∧
      s.lbu.walkable ↑l.cfg.priority ∧ w.lbu.fits n l.cfg.asksFor = true ∧ s.markOpen n) ∧
    (let s := awaited 8 (tight plant); let src := console; let p := req 8 1000 0; let n : Fin 96 := 8;
      let l := s.lbu.loads[n.val]; let asked := min (halfAt p 1).toNat 1000; let w := s.roomFor n l.cfg.asksFor none;
      s.hears src ∧ p.length = 4 ∧ (byteAt p 0).toNat = n.val ∧ l.cfg.valid = true ∧ l.cfg.type = LoadType.switched ∧
      l.state = LoadState.off ∧ 1 ≤ asked ∧ s.lbu.trip[↑l.cfg.branch] = false ∧ s.lbu.fits n l.cfg.asksFor = false ∧
      s.lbu.walkable ↑l.cfg.priority ∧ w.lbu.fits n l.cfg.asksFor = true ∧ s.markOpen n) ∧
    (let s := atOnce 8 (limited 99 2000 (lit 9 1000 100 plant)); let src := console; let p := req 8 1000 0;
      let n : Fin 96 := 8; let l := s.lbu.loads[n.val]; let asked := min (halfAt p 1).toNat 1000;
      let w := s.roomFor n l.cfg.asksFor none;
      s.hears src ∧ p.length = 4 ∧ (byteAt p 0).toNat = n.val ∧ l.cfg.valid = true ∧ l.cfg.type = LoadType.switched ∧
      l.state = LoadState.off ∧ 1 ≤ asked ∧ s.lbu.trip[↑l.cfg.branch] = false ∧ s.lbu.fits n l.cfg.asksFor = false ∧
      s.lbu.walkable ↑l.cfg.priority ∧ w.lbu.fits n l.cfg.asksFor = false) ∧
    (let s := tighter plant; let src := console; let p := req 8 1000 0; let n : Fin 96 := 8;
      let l := s.lbu.loads[n.val]; let asked := min (halfAt p 1).toNat 1000; let w := s.roomFor n l.cfg.asksFor none;
      s.hears src ∧ p.length = 4 ∧ (byteAt p 0).toNat = n.val ∧ l.cfg.valid = true ∧ l.cfg.type = LoadType.switched ∧
      l.state = LoadState.off ∧ 1 ≤ asked ∧ s.lbu.trip[↑l.cfg.branch] = false ∧ s.lbu.fits n l.cfg.asksFor = false ∧
      s.lbu.walkable ↑l.cfg.priority ∧ w.lbu.fits n l.cfg.asksFor = false) := by
  refine ⟨⟨?_, ?_, ?_, ?_, ?_, ?_, ?_, ?_, ?_, ?_, ?_, ?_⟩, ⟨?_, ?_, ?_, ?_, ?_, ?_, ?_, ?_, ?_, ?_, ?_, ?_⟩, ⟨?_, ?_,
    ?_, ?_, ?_, ?_, ?_, ?_, ?_, ?_, ?_, ?_⟩, ⟨?_, ?_, ?_, ?_, ?_, ?_, ?_, ?_, ?_, ?_, ?_, ?_⟩, ⟨?_, ?_, ?_, ?_, ?_,
    ?_, ?_, ?_, ?_, ?_, ?_⟩, ⟨?_, ?_, ?_, ?_, ?_, ?_, ?_, ?_, ?_, ?_, ?_⟩, ⟨?_, ?_, ?_, ?_, ?_, ?_, ?_, ?_, ?_, ?_,
    ?_, ?_⟩, ⟨?_, ?_, ?_, ?_, ?_, ?_, ?_, ?_, ?_, ?_, ?_, ?_⟩, ⟨?_, ?_, ?_, ?_, ?_, ?_, ?_, ?_, ?_, ?_, ?_, ?_⟩, ⟨?_,
    ?_, ?_, ?_, ?_, ?_, ?_, ?_, ?_, ?_, ?_⟩, ⟨?_, ?_, ?_, ?_, ?_, ?_, ?_, ?_, ?_, ?_, ?_⟩⟩ <;> decide +kernel

theorem witness_FadeAndInrushEnd :
    (let s := fadingUp; let n : Fin 96 := 7; let d : Nat := 500; let l := s.lbu.loads[n.val];
      l.fade = FadeTimer.rising d) ∧
    (let s := fadingDown; let n : Fin 96 := 7; let d : Nat := 500; let l := s.lbu.loads[n.val];
      let at_ : State := { s with now := max s.now d };
      let u : State := { at_ with lbu := { s.lbu with loads := upd s.lbu.loads n fun l =>
        { l with fade := .stopped, committed := l.granted
                 demand := (l.cfg.full * l.granted + 999) / 1000 } } };
      l.fade = FadeTimer.falling d ∧ l.granted ≠ 0 ∧ u.shedFree) ∧
    (let s := fadingOff; let n : Fin 96 := 7; let d : Nat := 500; let l := s.lbu.loads[n.val];
      let at_ : State := { s with now := max s.now d };
      let u : State := { at_ with lbu := { s.lbu with
        admission := s.lbu.admission.filter (· != n)
        loads := upd s.lbu.loads n fun l => { l with fade := .stopped, committed := 0, demand := 0, state := .off } } };
      l.fade = FadeTimer.falling d ∧ l.granted = 0 ∧ u.shedFree) ∧
    (let s := onLoad 7 (fun l => { l with granted := 0, fade := .falling 500 }) (lit 7 500 50 (threeShed plant));
      let n : Fin 96 := 7; let d : Nat := 500; let l := s.lbu.loads[n.val];
      let at_ : State := { s with now := max s.now d };
      let u : State := { at_ with lbu := { s.lbu with
        admission := s.lbu.admission.filter (· != n)
        loads := upd s.lbu.loads n fun l => { l with fade := .stopped, committed := 0, demand := 0, state := .off } } };
      l.fade = FadeTimer.falling d ∧ l.granted = 0 ∧ u.shedFree) ∧
    (let s := rushing 8 plant; let n : Fin 96 := 8; let d : Nat := 500;
      let u : State := { s with
        now := max s.now d
        lbu := { s.lbu with loads := upd s.lbu.loads n fun l =>
          { l with inrushTimer := .stopped, state := .on, demand := l.cfg.full } } };
      s.lbu.loads[n.val].state = LoadState.inrush ∧ s.lbu.loads[n.val].inrushTimer = InrushTimer.running d ∧
      u.shedFree) ∧
    (let s := rushing 8 (manyShed plant); let n : Fin 96 := 8; let d : Nat := 500;
      let u : State := { s with
        now := max s.now d
        lbu := { s.lbu with loads := upd s.lbu.loads n fun l =>
          { l with inrushTimer := .stopped, state := .on, demand := l.cfg.full } } };
      s.lbu.loads[n.val].state = LoadState.inrush ∧ s.lbu.loads[n.val].inrushTimer = InrushTimer.running d ∧
      u.shedFree) := by
  refine ⟨?_, ⟨?_, ?_, ?_⟩, ⟨?_, ?_, ?_⟩, ⟨?_, ?_, ?_⟩, ⟨?_, ?_, ?_⟩, ⟨?_, ?_, ?_⟩⟩ <;> decide +kernel

theorem witness_ReleaseRestores :
    (let s := limited 399 2000 (shedOne 9 (rushing 8 plant)); let n : Fin 96 := 8; let d : Nat := 500;
      let u : State := { s with
        now := max s.now d
        lbu := { s.lbu with loads := upd s.lbu.loads n fun l =>
          { l with inrushTimer := .stopped, state := .on, demand := l.cfg.full } } };
      let asks := fun m : Fin 96 =>
        let k := u.lbu.loads[m.val]
        if k.cfg.type = .dimmed then (k.cfg.full * k.requested + 999) / 1000
        else if k.cfg.inrushTime = 0 then k.cfg.full else k.cfg.inrush;
      let pre : List (Fin 96) := []; let m : Fin 96 := 9; let rest : List (Fin 96) := [];
      s.lbu.loads[n.val].state = LoadState.inrush ∧ s.lbu.loads[n.val].inrushTimer = InrushTimer.running d ∧
      s.lbu.shedList = pre ++ m :: rest ∧ (∀ x ∈ pre, u.lbu.trip[↑u.lbu.loads[x.val].cfg.branch] = true) ∧
      ¬u.lbu.trip[↑u.lbu.loads[m.val].cfg.branch] = true ∧ u.lbu.fits m (asks m) = false) ∧
    (let s := limited 150 2000 (manyShed (rushing 8 plant)); let n : Fin 96 := 8; let d : Nat := 500;
      let u : State := { s with
        now := max s.now d
        lbu := { s.lbu with loads := upd s.lbu.loads n fun l =>
          { l with inrushTimer := .stopped, state := .on, demand := l.cfg.full } } };
      let asks := fun m : Fin 96 =>
        let k := u.lbu.loads[m.val]
        if k.cfg.type = .dimmed then (k.cfg.full * k.requested + 999) / 1000
        else if k.cfg.inrushTime = 0 then k.cfg.full else k.cfg.inrush;
      let pre : List (Fin 96) := [11]; let m : Fin 96 := 9; let rest : List (Fin 96) := [7, 12];
      s.lbu.loads[n.val].state = LoadState.inrush ∧ s.lbu.loads[n.val].inrushTimer = InrushTimer.running d ∧
      s.lbu.shedList = pre ++ m :: rest ∧ (∀ x ∈ pre, u.lbu.trip[↑u.lbu.loads[x.val].cfg.branch] = true) ∧
      ¬u.lbu.trip[↑u.lbu.loads[m.val].cfg.branch] = true ∧ u.lbu.fits m (asks m) = false) ∧
    (let s := headShed (rushing 8 plant); let n : Fin 96 := 8; let d : Nat := 500;
      let u : State := { s with
        now := max s.now d
        lbu := { s.lbu with loads := upd s.lbu.loads n fun l =>
          { l with inrushTimer := .stopped, state := .on, demand := l.cfg.full } } };
      s.lbu.loads[n.val].state = LoadState.inrush ∧ s.lbu.loads[n.val].inrushTimer = InrushTimer.running d ∧
      (∀ x ∈ s.lbu.shedList, u.lbu.trip[↑u.lbu.loads[x.val].cfg.branch] = true)) ∧
    (let s := rushing 8 plant; let n : Fin 96 := 8; let d : Nat := 500;
      let u : State := { s with
        now := max s.now d
        lbu := { s.lbu with loads := upd s.lbu.loads n fun l =>
          { l with inrushTimer := .stopped, state := .on, demand := l.cfg.full } } };
      s.lbu.loads[n.val].state = LoadState.inrush ∧ s.lbu.loads[n.val].inrushTimer = InrushTimer.running d ∧
      (∀ x ∈ s.lbu.shedList, u.lbu.trip[↑u.lbu.loads[x.val].cfg.branch] = true)) ∧
    (let s := limited 400 2000 (shedOne 9 (rushing 8 plant)); let n : Fin 96 := 8; let d : Nat := 500;
      let u : State := { s with
        now := max s.now d
        lbu := { s.lbu with loads := upd s.lbu.loads n fun l =>
          { l with inrushTimer := .stopped, state := .on, demand := l.cfg.full } } };
      let asks := fun m : Fin 96 =>
        let k := u.lbu.loads[m.val]
        if k.cfg.type = .dimmed then (k.cfg.full * k.requested + 999) / 1000
        else if k.cfg.inrushTime = 0 then k.cfg.full else k.cfg.inrush;
      let pre : List (Fin 96) := []; let m : Fin 96 := 9; let rest : List (Fin 96) := [];
      s.lbu.loads[n.val].state = LoadState.inrush ∧ s.lbu.loads[n.val].inrushTimer = InrushTimer.running d ∧
      s.lbu.shedList = pre ++ m :: rest ∧ (∀ x ∈ pre ++ rest, u.lbu.trip[↑u.lbu.loads[x.val].cfg.branch] = true) ∧
      ¬u.lbu.trip[↑u.lbu.loads[m.val].cfg.branch] = true ∧ u.lbu.fits m (asks m) = true ∧
      u.lbu.loads[m.val].cfg.type ≠ LoadType.motor ∧ u.lbu.loads[m.val].demand = 0 ∧ u.markOpen m) ∧
    (let s := limited 500 2000 (awaited 9 (shedOne 9 (rushing 8 (shedding plant)))); let n : Fin 96 := 8;
      let d : Nat := 500;
      let u : State := { s with
        now := max s.now d
        lbu := { s.lbu with loads := upd s.lbu.loads n fun l =>
          { l with inrushTimer := .stopped, state := .on, demand := l.cfg.full } } };
      let asks := fun m : Fin 96 =>
        let k := u.lbu.loads[m.val]
        if k.cfg.type = .dimmed then (k.cfg.full * k.requested + 999) / 1000
        else if k.cfg.inrushTime = 0 then k.cfg.full else k.cfg.inrush;
      let pre : List (Fin 96) := []; let m : Fin 96 := 9; let rest : List (Fin 96) := [];
      s.lbu.loads[n.val].state = LoadState.inrush ∧ s.lbu.loads[n.val].inrushTimer = InrushTimer.running d ∧
      s.lbu.shedList = pre ++ m :: rest ∧ (∀ x ∈ pre ++ rest, u.lbu.trip[↑u.lbu.loads[x.val].cfg.branch] = true) ∧
      ¬u.lbu.trip[↑u.lbu.loads[m.val].cfg.branch] = true ∧ u.lbu.fits m (asks m) = true ∧
      u.lbu.loads[m.val].cfg.type ≠ LoadType.motor ∧ u.lbu.loads[m.val].demand = 0 ∧ u.markOpen m) ∧
    (let s := freeLine (awaited 9 (shedOne 9 (rushing 8 (shedding plant)))); let n : Fin 96 := 8; let d : Nat := 500;
      let u : State := { s with
        now := max s.now d
        lbu := { s.lbu with loads := upd s.lbu.loads n fun l =>
          { l with inrushTimer := .stopped, state := .on, demand := l.cfg.full } } };
      let asks := fun m : Fin 96 =>
        let k := u.lbu.loads[m.val]
        if k.cfg.type = .dimmed then (k.cfg.full * k.requested + 999) / 1000
        else if k.cfg.inrushTime = 0 then k.cfg.full else k.cfg.inrush;
      let pre : List (Fin 96) := []; let m : Fin 96 := 9; let rest : List (Fin 96) := [];
      s.lbu.loads[n.val].state = LoadState.inrush ∧ s.lbu.loads[n.val].inrushTimer = InrushTimer.running d ∧
      s.lbu.shedList = pre ++ m :: rest ∧ (∀ x ∈ pre ++ rest, u.lbu.trip[↑u.lbu.loads[x.val].cfg.branch] = true) ∧
      ¬u.lbu.trip[↑u.lbu.loads[m.val].cfg.branch] = true ∧ u.lbu.fits m (asks m) = true ∧
      u.lbu.loads[m.val].cfg.type ≠ LoadType.motor ∧ u.lbu.loads[m.val].demand = 0 ∧ u.markOpen m) ∧
    (let s := manyShed (rushing 8 plant); let n : Fin 96 := 8; let d : Nat := 500;
      let u : State := { s with
        now := max s.now d
        lbu := { s.lbu with loads := upd s.lbu.loads n fun l =>
          { l with inrushTimer := .stopped, state := .on, demand := l.cfg.full } } };
      s.lbu.loads[n.val].state = LoadState.inrush ∧ s.lbu.loads[n.val].inrushTimer = InrushTimer.running d ∧
      u.shedFree) ∧
    (let s := limited 600 2000 (manyShed (rushing 8 plant)); let n : Fin 96 := 8; let d : Nat := 500;
      let u : State := { s with
        now := max s.now d
        lbu := { s.lbu with loads := upd s.lbu.loads n fun l =>
          { l with inrushTimer := .stopped, state := .on, demand := l.cfg.full } } };
      s.lbu.loads[n.val].state = LoadState.inrush ∧ s.lbu.loads[n.val].inrushTimer = InrushTimer.running d ∧
      u.shedFree) ∧
    (let s := awaited 7 (awaited 9 (manyShed (rushing 8 (shedding plant)))); let n : Fin 96 := 8; let d : Nat := 500;
      let u : State := { s with
        now := max s.now d
        lbu := { s.lbu with loads := upd s.lbu.loads n fun l =>
          { l with inrushTimer := .stopped, state := .on, demand := l.cfg.full } } };
      s.lbu.loads[n.val].state = LoadState.inrush ∧ s.lbu.loads[n.val].inrushTimer = InrushTimer.running d ∧
      u.shedFree) := by
  refine ⟨⟨?_, ?_, ?_, ?_, ?_, ?_⟩, ⟨?_, ?_, ?_, ?_, ?_, ?_⟩, ⟨?_, ?_, ?_⟩, ⟨?_, ?_, ?_⟩, ⟨?_, ?_, ?_, ?_, ?_, ?_, ?_,
    ?_, ?_⟩, ⟨?_, ?_, ?_, ?_, ?_, ?_, ?_, ?_, ?_⟩, ⟨?_, ?_, ?_, ?_, ?_, ?_, ?_, ?_, ?_⟩, ⟨?_, ?_, ?_⟩, ⟨?_, ?_, ?_⟩,
    ⟨?_, ?_, ?_⟩⟩ <;> decide +kernel

theorem witness_BranchTrips :
    (let s := manyLit (motion .running .none .run plant); let b : Fin 4 := 1;
      let on := fun x : Fin 4 => (s.chan x).state.active &&
        (s.lbu.loads[(s.chan x).cfg.motorLoad.val]).cfg.branch == b;
      let u : State := { s with lbu := { s.lbu with trip := upd s.lbu.trip b fun _ => true } }; let w := u.darkened b;
      let v := w.faultingAll on .branchTrip; let released := decide (∃ c : Fin 4, on c = true ∧ s.drives c = true);
      s.lbu.trip[b.val] = false ∧ (∀ c : Fin 4, on c = true → s.faultOpen c FaultCause.branchTrip) ∧
      (released = true → v.shedFree) ∧
      (∀ m : Fin 96, s.lbu.loads[m.val].cfg.branch = b → s.lbu.loads[m.val].drawing = true → s.lbu.loads[m.val].bound
        = none → s.lbu.loads[m.val].cfg.type ≠ LoadType.motor)) ∧
    (let s := freeLine (manyLit (essential plant)); let b : Fin 4 := 1;
      let on := fun x : Fin 4 => (s.chan x).state.active &&
        (s.lbu.loads[(s.chan x).cfg.motorLoad.val]).cfg.branch == b;
      let u : State := { s with lbu := { s.lbu with trip := upd s.lbu.trip b fun _ => true } }; let w := u.darkened b;
      let v := w.faultingAll on .branchTrip; let released := decide (∃ c : Fin 4, on c = true ∧ s.drives c = true);
      s.lbu.trip[b.val] = false ∧ (∀ c : Fin 4, on c = true → s.faultOpen c FaultCause.branchTrip) ∧
      (released = true → v.shedFree) ∧
      (∀ m : Fin 96, s.lbu.loads[m.val].cfg.branch = b → s.lbu.loads[m.val].drawing = true → s.lbu.loads[m.val].bound
        = none → s.lbu.loads[m.val].cfg.type ≠ LoadType.motor)) ∧
    (let s := manyLit plant; let b : Fin 4 := 2;
      let on := fun x : Fin 4 => (s.chan x).state.active &&
        (s.lbu.loads[(s.chan x).cfg.motorLoad.val]).cfg.branch == b;
      let u : State := { s with lbu := { s.lbu with trip := upd s.lbu.trip b fun _ => true } }; let w := u.darkened b;
      let v := w.faultingAll on .branchTrip; let released := decide (∃ c : Fin 4, on c = true ∧ s.drives c = true);
      s.lbu.trip[b.val] = false ∧ (∀ c : Fin 4, on c = true → s.faultOpen c FaultCause.branchTrip) ∧
      (released = true → v.shedFree) ∧
      (∀ m : Fin 96, s.lbu.loads[m.val].cfg.branch = b → s.lbu.loads[m.val].drawing = true → s.lbu.loads[m.val].bound
        = none → s.lbu.loads[m.val].cfg.type ≠ LoadType.motor)) ∧
    (let s := manyLit (motion .running .none .run plant); let b : Fin 4 := 1;
      s.lbu.trip[b.val] = false) ∧
    (let s := rival (motion .running .none .run plant); let b : Fin 4 := 1;
      s.lbu.trip[b.val] = false) ∧
    (let s := tripped plant; let b : Fin 4 := 1;
      let u : State := { s with lbu := { s.lbu with trip := upd s.lbu.trip b fun _ => false } };
      s.lbu.trip[b.val] = true ∧ u.shedFree) ∧
    (let s := tripped (manyShed plant); let b : Fin 4 := 1;
      let u : State := { s with lbu := { s.lbu with trip := upd s.lbu.trip b fun _ => false } };
      s.lbu.trip[b.val] = true ∧ u.shedFree) := by
  refine ⟨⟨?_, ?_, ?_, ?_⟩, ⟨?_, ?_, ?_, ?_⟩, ⟨?_, ?_, ?_, ?_⟩, ?_, ?_, ⟨?_, ?_⟩, ⟨?_, ?_⟩⟩ <;> decide +kernel

theorem witness_EntryFallsDue :
    (let s := actionDue; let d : Delayed := ⟨500, 0, 0, 8, 1000, 0⟩; let rest : List Delayed := [];
      let n : Fin 96 := 8;
      s.sx.delayed = d :: rest ∧
      (∀ i : Fin 4, i ≠ d.slot → s.sx.slots[i.val].isSome = true → (rest.any fun e => e.slot == i) = true) ∧
      d.load = n.val) ∧
    (let s : State := { actionDue with sx := { actionDue.sx with delayed := [⟨500, 0, 0, 96, 1000, 0⟩, ⟨600, 0, 0, 8,
        1000, 0⟩] } }; let d : Delayed := ⟨500, 0, 0, 96, 1000, 0⟩;
      let rest : List Delayed := [⟨600, 0, 0, 8, 1000, 0⟩];
      s.sx.delayed = d :: rest ∧
      (∀ i : Fin 4, i ≠ d.slot → s.sx.slots[i.val].isSome = true → (rest.any fun e => e.slot == i) = true) ∧
      96 ≤ d.load) ∧
    (let s : State := { actionDue with sx := { actionDue.sx with delayed := [⟨500, 0, 0, 7, 400, 3⟩, ⟨600, 0, 0, 8,
        1000, 0⟩] } }; let d : Delayed := ⟨500, 0, 0, 7, 400, 3⟩;
      let rest : List Delayed := [⟨600, 0, 0, 8, 1000, 0⟩]; let src := console; let p := req 7 400 3;
      s.sx.delayed = d :: rest ∧
      (∀ i : Fin 4, i ≠ d.slot → s.sx.slots[i.val].isSome = true → (rest.any fun e => e.slot == i) = true) ∧
      s.hears src ∧ p.length = 4 ∧ (byteAt p 0).toNat = d.load ∧ (halfAt p 1).toNat = d.level ∧
      (byteAt p 3).toNat = d.fade) ∧
    (let s := actionDue; let d : Delayed := ⟨500, 0, 0, 8, 1000, 0⟩; let rest : List Delayed := [];
      let src := console; let p := req 8 1000 0;
      s.sx.delayed = d :: rest ∧
      (∀ i : Fin 4, i ≠ d.slot → s.sx.slots[i.val].isSome = true → (rest.any fun e => e.slot == i) = true) ∧
      s.hears src ∧ p.length = 4 ∧ (byteAt p 0).toNat = d.load ∧ (halfAt p 1).toNat = d.level ∧
      (byteAt p 3).toNat = d.fade) ∧
    (let s := crowded; let d : Delayed := ⟨200, 0, 7, 7, 0, 0⟩;
      let rest : List Delayed := [⟨200, 1, 8, 9, 0, 0⟩, ⟨500, 2, 9, 7, 0, 0⟩, ⟨700, 3, 10, 7, 0, 0⟩];
      let n : Fin 96 := 7;
      s.sx.delayed = d :: rest ∧
      (∀ i : Fin 4, i ≠ d.slot → s.sx.slots[i.val].isSome = true → (rest.any fun e => e.slot == i) = true) ∧
      d.load = n.val) ∧
    (let s := actionDue; let d : Delayed := ⟨500, 0, 0, 8, 1000, 0⟩; let rest : List Delayed := [];
      s.sx.delayed = d :: rest ∧
      (∀ i : Fin 4, i ≠ d.slot → s.sx.slots[i.val].isSome = true → (rest.any fun e => e.slot == i) = true) ∧
      s.resends { load := d.load, level := d.level, fade := d.fade, delay := 0 }) := by
  refine ⟨⟨?_, ?_, ?_⟩, ⟨?_, ?_, ?_⟩, ⟨?_, ?_, ?_, ?_, ?_, ?_, ?_⟩, ⟨?_, ?_, ?_, ?_, ?_, ?_, ?_⟩, ⟨?_, ?_, ?_⟩, ⟨?_,
    ?_, ?_⟩⟩ <;> decide +kernel

theorem witness_MotionRefused :
    (let s := plant; let src := console; let ch : Byte := 3; let c : Fin 4 := 3;
      let i : Instr := .runContinue console 3;
      s.hears src ∧ ch.toNat = c.val ∧
      i ∈ [Instr.armA src ch, Instr.armB src ch, Instr.runContinue src ch, Instr.runFinish src ch, Instr.stop src ch,
        Instr.cancel src ch, Instr.jogA src ch, Instr.jogB src ch, Instr.motionClear src ch] ∧
      (s.chan c).state = ChanState.off) ∧
    (let s := plant; let src := stranger; let ch : Byte := 0; let c : Fin 4 := 0; let i : Instr := .jogB stranger 0;
      s.hears src ∧ ch.toNat = c.val ∧
      i ∈ [Instr.armA src ch, Instr.armB src ch, Instr.runContinue src ch, Instr.runFinish src ch, Instr.stop src ch,
        Instr.cancel src ch, Instr.jogA src ch, Instr.jogB src ch, Instr.motionClear src ch] ∧
      (s.chan c).state ≠ ChanState.off ∧ (s.chan c).listed src.origin = false) ∧
    (let s := plant; let src := stranger; let i : Instr := .stalled stranger;
      s.hears src ∧
      i ∈ [Instr.moving src, Instr.atRest src, Instr.atLimit src, Instr.stalled src, Instr.faulted src] ∧
      (src.origin.zone ≠ s.mr.ownZone ∨ ∀ c : Fin 4, ¬((s.chan c).cfg.valid = true ∧ (s.chan c).cfg.controller =
        src.origin.device))) := by
  refine ⟨?_, ?_, ?_⟩ <;> decide +kernel

theorem witness_MotionStarts :
    (let s := limited 450 5000 (manyLit armed); let src := console; let ch : Byte := 0; let c : Fin 4 := 0;
      let n := (s.chan c).cfg.motorLoad; let asks := (s.lbu.loads[n.val]).cfg.asksFor;
      let w := s.roomFor n asks (some c);
      s.takesMotion src ch c ∧ (s.chan c).state = ChanState.armed ∧ (s.chan c).owner = some src.origin ∧
      (∀ k ∈ (s.chan c).list (s.chan c).direction, condTrue s k = true) ∧ s.motorReady c n ∧
      s.lbu.fits n asks = false ∧ s.lbu.walkable ↑s.lbu.loads[n.val].cfg.priority ∧ w.lbu.fits n asks = true) ∧
    (let s := recovers (limited 1000 600 (manyLit armed)); let src := console; let ch : Byte := 0; let c : Fin 4 := 0;
      let n := (s.chan c).cfg.motorLoad; let asks := (s.lbu.loads[n.val]).cfg.asksFor;
      let w := s.roomFor n asks (some c);
      s.takesMotion src ch c ∧ (s.chan c).state = ChanState.armed ∧ (s.chan c).owner = some src.origin ∧
      (∀ k ∈ (s.chan c).list (s.chan c).direction, condTrue s k = true) ∧ s.motorReady c n ∧
      s.lbu.fits n asks = false ∧ s.lbu.walkable ↑s.lbu.loads[n.val].cfg.priority ∧ w.lbu.fits n asks = true) ∧
    (let s := limited 450 600 (manyLit plant); let src := console; let ch : Byte := 0; let c : Fin 4 := 0;
      let d : Direction := .b; let n := (s.chan c).cfg.motorLoad; let asks := (s.lbu.loads[n.val]).cfg.asksFor;
      let w := s.roomFor n asks (some c);
      s.takesMotion src ch c ∧ (s.chan c).state = ChanState.idle ∧ s.ds.loopOpen = false ∧
      (∀ x : Fin 4, x ≠ c → s.ds.excludes c x = true → (s.chan x).state.active = false) ∧ s.ds.trip[c.val] = false ∧
      (∀ k ∈ (s.chan c).list d, condTrue s k = true) ∧ s.motorReady c n ∧ s.lbu.fits n asks = false ∧
      s.lbu.walkable ↑s.lbu.loads[n.val].cfg.priority ∧ w.lbu.fits n asks = true) ∧
    (let s := armed; let src := console; let ch : Byte := 0; let c : Fin 4 := 0; let n := (s.chan c).cfg.motorLoad;
      let asks := (s.lbu.loads[n.val]).cfg.asksFor;
      s.takesMotion src ch c ∧ (s.chan c).state = ChanState.armed ∧ (s.chan c).owner = some src.origin ∧
      (∀ k ∈ (s.chan c).list (s.chan c).direction, condTrue s k = true) ∧ s.motorReady c n ∧
      s.lbu.fits n asks = true ∧ s.slotOpen c) ∧
    (let s := freeLine armed; let src := console; let ch : Byte := 0; let c : Fin 4 := 0;
      let n := (s.chan c).cfg.motorLoad; let asks := (s.lbu.loads[n.val]).cfg.asksFor;
      s.takesMotion src ch c ∧ (s.chan c).state = ChanState.armed ∧ (s.chan c).owner = some src.origin ∧
      (∀ k ∈ (s.chan c).list (s.chan c).direction, condTrue s k = true) ∧ s.motorReady c n ∧
      s.lbu.fits n asks = true ∧ s.slotOpen c) ∧
    (let s := atOnce 5 armed; let src := console; let ch : Byte := 0; let c : Fin 4 := 0;
      let n := (s.chan c).cfg.motorLoad; let asks := (s.lbu.loads[n.val]).cfg.asksFor;
      s.takesMotion src ch c ∧ (s.chan c).state = ChanState.armed ∧ (s.chan c).owner = some src.origin ∧
      (∀ k ∈ (s.chan c).list (s.chan c).direction, condTrue s k = true) ∧ s.motorReady c n ∧
      s.lbu.fits n asks = true ∧ s.slotOpen c) ∧
    (let s := recovers armed; let src := console; let ch : Byte := 0; let c : Fin 4 := 0;
      let n := (s.chan c).cfg.motorLoad; let asks := (s.lbu.loads[n.val]).cfg.asksFor;
      let started := fun (u : State) (p : Phase) => u.modChan c fun x =>
        { x with state := .starting, mode := .run, phase := p
                 timers := { x.timers with arm := none, gap := some (s.now + x.cfg.timings.runGap) } };
      let u := (started (s.motorAdmitted n) .queued).faulting c .segment;
      s.takesMotion src ch c ∧ (s.chan c).state = ChanState.armed ∧ (s.chan c).owner = some src.origin ∧
      (∀ k ∈ (s.chan c).list (s.chan c).direction, condTrue s k = true) ∧ s.motorReady c n ∧
      s.lbu.fits n asks = true ∧ (s.chan c).command = none ∧ s.zp.segment = Segment.faulted ∧ u.shedFree) ∧
    (let s := recovers (manyShed armed); let src := console; let ch : Byte := 0; let c : Fin 4 := 0;
      let n := (s.chan c).cfg.motorLoad; let asks := (s.lbu.loads[n.val]).cfg.asksFor;
      let started := fun (u : State) (p : Phase) => u.modChan c fun x =>
        { x with state := .starting, mode := .run, phase := p
                 timers := { x.timers with arm := none, gap := some (s.now + x.cfg.timings.runGap) } };
      let u := (started (s.motorAdmitted n) .queued).faulting c .segment;
      s.takesMotion src ch c ∧ (s.chan c).state = ChanState.armed ∧ (s.chan c).owner = some src.origin ∧
      (∀ k ∈ (s.chan c).list (s.chan c).direction, condTrue s k = true) ∧ s.motorReady c n ∧
      s.lbu.fits n asks = true ∧ (s.chan c).command = none ∧ s.zp.segment = Segment.faulted ∧ u.shedFree) ∧
    (let s := tight armed; let src := console; let ch : Byte := 0; let c : Fin 4 := 0;
      let n := (s.chan c).cfg.motorLoad; let asks := (s.lbu.loads[n.val]).cfg.asksFor;
      let w := s.roomFor n asks (some c);
      s.takesMotion src ch c ∧ (s.chan c).state = ChanState.armed ∧ (s.chan c).owner = some src.origin ∧
      (∀ k ∈ (s.chan c).list (s.chan c).direction, condTrue s k = true) ∧ s.motorReady c n ∧
      s.lbu.fits n asks = false ∧ s.lbu.walkable ↑s.lbu.loads[n.val].cfg.priority ∧ w.lbu.fits n asks = true) ∧
    (let s := atOnce 5 (limited 100 2000 (lit 9 1000 100 armed)); let src := console; let ch : Byte := 0;
      let c : Fin 4 := 0; let n := (s.chan c).cfg.motorLoad; let asks := (s.lbu.loads[n.val]).cfg.asksFor;
      let w := s.roomFor n asks (some c);
      s.takesMotion src ch c ∧ (s.chan c).state = ChanState.armed ∧ (s.chan c).owner = some src.origin ∧
      (∀ k ∈ (s.chan c).list (s.chan c).direction, condTrue s k = true) ∧ s.motorReady c n ∧
      s.lbu.fits n asks = false ∧ s.lbu.walkable ↑s.lbu.loads[n.val].cfg.priority ∧ w.lbu.fits n asks = true) ∧
    (let s := plant; let src := console; let ch : Byte := 0; let c : Fin 4 := 0; let d : Direction := .b;
      let n := (s.chan c).cfg.motorLoad; let asks := (s.lbu.loads[n.val]).cfg.asksFor;
      s.takesMotion src ch c ∧ (s.chan c).state = ChanState.idle ∧ s.ds.loopOpen = false ∧
      (∀ x : Fin 4, x ≠ c → s.ds.excludes c x = true → (s.chan x).state.active = false) ∧ s.ds.trip[c.val] = false ∧
      (∀ k ∈ (s.chan c).list d, condTrue s k = true) ∧ s.motorReady c n ∧ s.lbu.fits n asks = true ∧ s.slotOpen c) ∧
    (let s := freeLine plant; let src := console; let ch : Byte := 0; let c : Fin 4 := 0; let d : Direction := .b;
      let n := (s.chan c).cfg.motorLoad; let asks := (s.lbu.loads[n.val]).cfg.asksFor;
      s.takesMotion src ch c ∧ (s.chan c).state = ChanState.idle ∧ s.ds.loopOpen = false ∧
      (∀ x : Fin 4, x ≠ c → s.ds.excludes c x = true → (s.chan x).state.active = false) ∧ s.ds.trip[c.val] = false ∧
      (∀ k ∈ (s.chan c).list d, condTrue s k = true) ∧ s.motorReady c n ∧ s.lbu.fits n asks = true ∧ s.slotOpen c) ∧
    (let s := atOnce 5 plant; let src := console; let ch : Byte := 0; let c : Fin 4 := 0; let d : Direction := .a;
      let n := (s.chan c).cfg.motorLoad; let asks := (s.lbu.loads[n.val]).cfg.asksFor;
      s.takesMotion src ch c ∧ (s.chan c).state = ChanState.idle ∧ s.ds.loopOpen = false ∧
      (∀ x : Fin 4, x ≠ c → s.ds.excludes c x = true → (s.chan x).state.active = false) ∧ s.ds.trip[c.val] = false ∧
      (∀ k ∈ (s.chan c).list d, condTrue s k = true) ∧ s.motorReady c n ∧ s.lbu.fits n asks = true ∧ s.slotOpen c) ∧
    (let s := faulted; let src := console; let ch : Byte := 0; let c : Fin 4 := 0; let d : Direction := .a;
      let n := (s.chan c).cfg.motorLoad; let asks := (s.lbu.loads[n.val]).cfg.asksFor;
      let started := fun (u : State) (p : Phase) => u.modChan c fun x =>
        { x with state := .starting, mode := .jog, phase := p, direction := d, owner := some src.origin
                 stopCause := .none };
      let u := (started (s.motorAdmitted n) .queued).faulting c .segment;
      s.takesMotion src ch c ∧ (s.chan c).state = ChanState.idle ∧ s.ds.loopOpen = false ∧
      (∀ x : Fin 4, x ≠ c → s.ds.excludes c x = true → (s.chan x).state.active = false) ∧ s.ds.trip[c.val] = false ∧
      (∀ k ∈ (s.chan c).list d, condTrue s k = true) ∧ s.motorReady c n ∧ s.lbu.fits n asks = true ∧
      (s.chan c).command = none ∧ s.zp.segment = Segment.faulted ∧ u.shedFree) ∧
    (let s := tight plant; let src := console; let ch : Byte := 0; let c : Fin 4 := 0; let d : Direction := .a;
      let n := (s.chan c).cfg.motorLoad; let asks := (s.lbu.loads[n.val]).cfg.asksFor;
      let w := s.roomFor n asks (some c);
      s.takesMotion src ch c ∧ (s.chan c).state = ChanState.idle ∧ s.ds.loopOpen = false ∧
      (∀ x : Fin 4, x ≠ c → s.ds.excludes c x = true → (s.chan x).state.active = false) ∧ s.ds.trip[c.val] = false ∧
      (∀ k ∈ (s.chan c).list d, condTrue s k = true) ∧ s.motorReady c n ∧ s.lbu.fits n asks = false ∧
      s.lbu.walkable ↑s.lbu.loads[n.val].cfg.priority ∧ w.lbu.fits n asks = true) := by
  refine ⟨⟨?_, ?_, ?_, ?_, ?_, ?_, ?_, ?_⟩, ⟨?_, ?_, ?_, ?_, ?_, ?_, ?_, ?_⟩, ⟨?_, ?_, ?_, ?_, ?_, ?_, ?_, ?_, ?_,
    ?_⟩, ⟨?_, ?_, ?_, ?_, ?_, ?_, ?_⟩, ⟨?_, ?_, ?_, ?_, ?_, ?_, ?_⟩, ⟨?_, ?_, ?_, ?_, ?_, ?_, ?_⟩, ⟨?_, ?_, ?_, ?_,
    ?_, ?_, ?_, ?_, ?_⟩, ⟨?_, ?_, ?_, ?_, ?_, ?_, ?_, ?_, ?_⟩, ⟨?_, ?_, ?_, ?_, ?_, ?_, ?_, ?_⟩, ⟨?_, ?_, ?_, ?_, ?_,
    ?_, ?_, ?_⟩, ⟨?_, ?_, ?_, ?_, ?_, ?_, ?_, ?_, ?_⟩, ⟨?_, ?_, ?_, ?_, ?_, ?_, ?_, ?_, ?_⟩, ⟨?_, ?_, ?_, ?_, ?_, ?_,
    ?_, ?_, ?_⟩, ⟨?_, ?_, ?_, ?_, ?_, ?_, ?_, ?_, ?_, ?_, ?_⟩, ⟨?_, ?_, ?_, ?_, ?_, ?_, ?_, ?_, ?_, ?_⟩⟩ <;> decide
    +kernel

theorem witness_StopSequences :
    (let s := motion .running .none .run plant; let c : Fin 4 := 0; let x := s.chan c; let src := console;
      let ch : Byte := 0;
      s.slotOpen c ∧ s.takesMotion src ch c ∧
      (x.state = ChanState.running ∨ (x.state = ChanState.starting ∧ x.phase = Phase.sent) ∧ x.mode = MotionMode.run)
        ∧ x.owner = some src.origin) ∧
    (let s := motion .starting .sent .run plant; let c : Fin 4 := 0; let x := s.chan c; let src := console;
      let ch : Byte := 0;
      s.slotOpen c ∧ s.takesMotion src ch c ∧
      (x.state = ChanState.running ∨ (x.state = ChanState.starting ∧ x.phase = Phase.sent) ∧ x.mode = MotionMode.run)
        ∧ x.owner = some src.origin) ∧
    (let s := freeLine (motion .jogging .none .jog plant); let c : Fin 4 := 0; let x := s.chan c; let src := console;
      let ch : Byte := 0;
      s.slotOpen c ∧ s.takesMotion src ch c ∧
      (x.state = ChanState.running ∨ x.state = ChanState.jogging ∨ x.state = ChanState.starting ∧ x.phase =
        Phase.sent)) ∧
    (let s := motion .starting .sent .jog plant; let c : Fin 4 := 0; let x := s.chan c; let src := console;
      let ch : Byte := 0;
      s.slotOpen c ∧ s.takesMotion src ch c ∧
      (x.state = ChanState.running ∨ x.state = ChanState.jogging ∨ x.state = ChanState.starting ∧ x.phase =
        Phase.sent)) ∧
    (let s := motion .jogging .none .jog plant; let c : Fin 4 := 0; let x := s.chan c; let src := console;
      let ch : Byte := 0;
      s.slotOpen c ∧ s.takesMotion src ch c ∧
      (x.state = ChanState.running ∨ x.state = ChanState.jogging ∨ x.state = ChanState.starting ∧ x.phase =
        Phase.sent) ∧ x.owner = some src.origin) ∧
    (let s := stopWaits (motion .jogging .none .jog plant); let c : Fin 4 := 0; let x := s.chan c; let src := console;
      let ch : Byte := 0;
      s.slotOpen c ∧ s.takesMotion src ch c ∧
      (x.state = ChanState.running ∨ x.state = ChanState.jogging ∨ x.state = ChanState.starting ∧ x.phase =
        Phase.sent) ∧ x.owner = some src.origin) ∧
    (let s := motion .running .none .run plant; let c : Fin 4 := 0; let x := s.chan c; let src := controller;
      s.slotOpen c ∧ s.takesIndication src c ∧
      (x.state = ChanState.running ∨ x.state = ChanState.jogging ∨ (x.state = ChanState.starting ∧ x.phase =
        Phase.sent) ∧ x.enable = true)) ∧
    (let s := motion .starting .sent .run plant; let c : Fin 4 := 0; let x := s.chan c; let src := controller;
      s.slotOpen c ∧ s.takesIndication src c ∧
      (x.state = ChanState.running ∨ x.state = ChanState.jogging ∨ (x.state = ChanState.starting ∧ x.phase =
        Phase.sent) ∧ x.enable = true)) ∧
    (let s := motion .running .none .run plant; let c : Fin 4 := 0; let x := s.chan c; let d : Nat := 300;
      s.slotOpen c ∧ x.timers.gap = some d ∧
      (x.state = ChanState.running ∨ x.state = ChanState.jogging ∨ x.state = ChanState.starting ∧ x.phase =
        Phase.sent)) ∧
    (let s := motion .starting .sent .run plant; let c : Fin 4 := 0; let x := s.chan c; let d : Nat := 300;
      s.slotOpen c ∧ x.timers.gap = some d ∧
      (x.state = ChanState.running ∨ x.state = ChanState.jogging ∨ x.state = ChanState.starting ∧ x.phase =
        Phase.sent)) ∧
    (let s := motion .running .none .run plant; let c : Fin 4 := 0; let x := s.chan c; let d : Nat := 60000;
      s.slotOpen c ∧ x.timers.travel = some d ∧ x.state = ChanState.running) ∧
    (let s := motion .jogging .none .jog plant; let c : Fin 4 := 0; let x := s.chan c; let d : Nat := 100;
      s.slotOpen c ∧ x.timers.jog = some d ∧ x.state = ChanState.jogging) ∧
    (let s := motion .starting .queued .run plant; let c : Fin 4 := 0; let src := console; let ch : Byte := 0;
      (s.chan c).state = ChanState.starting ∧ (s.chan c).phase ≠ Phase.sent ∧ s.takesMotion src ch c ∧
      (s.withdrawn c StopCause.stop).shedFree) ∧
    (let s := shedding (manyShed plant); let c : Fin 4 := 0; let src := console; let ch : Byte := 0;
      (s.chan c).state = ChanState.starting ∧ (s.chan c).phase ≠ Phase.sent ∧ s.takesMotion src ch c ∧
      (s.withdrawn c StopCause.stop).shedFree) ∧
    (let s := awaited 9 (shedding (manyShed plant)); let c : Fin 4 := 0; let src := console; let ch : Byte := 0;
      (s.chan c).state = ChanState.starting ∧ (s.chan c).phase ≠ Phase.sent ∧ s.takesMotion src ch c ∧
      (s.withdrawn c StopCause.stop).shedFree ∧ (s.chan c).owner = some src.origin) ∧
    (let s := startQueued; let c : Fin 4 := 0; let src := console; let ch : Byte := 0;
      (s.chan c).state = ChanState.starting ∧ (s.chan c).phase ≠ Phase.sent ∧ s.takesMotion src ch c ∧
      (s.withdrawn c StopCause.stop).shedFree ∧ (s.chan c).owner = some src.origin) ∧
    (let s := startQueued; let c : Fin 4 := 0; let src := console; let ch : Byte := 0;
      (s.chan c).state = ChanState.starting ∧ (s.chan c).phase ≠ Phase.sent ∧ s.takesMotion src ch c ∧
      (s.withdrawn c StopCause.finish).shedFree ∧ (s.chan c).mode = MotionMode.run ∧
      (s.chan c).owner = some src.origin) ∧
    (let s := shedding plant; let c : Fin 4 := 0; let src := console; let ch : Byte := 0;
      (s.chan c).state = ChanState.starting ∧ (s.chan c).phase ≠ Phase.sent ∧ s.takesMotion src ch c ∧
      (s.withdrawn c StopCause.finish).shedFree ∧ (s.chan c).mode = MotionMode.run ∧
      (s.chan c).owner = some src.origin) ∧
    (let s := startQueued; let c : Fin 4 := 0; let d : Nat := 300;
      let u := State.withdrawn { s with now := max s.now d } c .gap;
      (s.chan c).state = ChanState.starting ∧ (s.chan c).phase ≠ Phase.sent ∧ (s.chan c).timers.gap = some d ∧
      u.shedFree) ∧
    (let s := shedding (headShed plant); let c : Fin 4 := 0; let d : Nat := 300;
      let u := State.withdrawn { s with now := max s.now d } c .gap;
      (s.chan c).state = ChanState.starting ∧ (s.chan c).phase ≠ Phase.sent ∧ (s.chan c).timers.gap = some d ∧
      u.shedFree) ∧
    (let s := foreign (motion .running .none .run plant); let src := console; let ch : Byte := 0; let c : Fin 4 := 0;
      let x := s.chan c;
      s.takesMotion src ch c ∧ x.owner ≠ some src.origin ∧
      (x.state = ChanState.running ∨ x.state = ChanState.starting ∧ x.mode = MotionMode.run)) ∧
    (let s := motion .jogging .none .jog plant; let src := console; let ch : Byte := 0; let c : Fin 4 := 0;
      let x := s.chan c;
      s.takesMotion src ch c ∧
      (x.state = ChanState.jogging ∨ x.state = ChanState.starting ∧ x.mode = MotionMode.jog)) ∧
    (let s := foreign (motion .running .none .run plant); let src := console; let ch : Byte := 0; let c : Fin 4 := 0;
      let x := s.chan c;
      s.takesMotion src ch c ∧ x.owner ≠ some src.origin ∧
      (x.state = ChanState.running ∨ x.state = ChanState.jogging ∨ x.state = ChanState.starting)) := by
  refine ⟨⟨?_, ?_, ?_, ?_⟩, ⟨?_, ?_, ?_, ?_⟩, ⟨?_, ?_, ?_⟩, ⟨?_, ?_, ?_⟩, ⟨?_, ?_, ?_, ?_⟩, ⟨?_, ?_, ?_, ?_⟩, ⟨?_, ?_,
    ?_⟩, ⟨?_, ?_, ?_⟩, ⟨?_, ?_, ?_⟩, ⟨?_, ?_, ?_⟩, ⟨?_, ?_, ?_⟩, ⟨?_, ?_, ?_⟩, ⟨?_, ?_, ?_, ?_⟩, ⟨?_, ?_, ?_, ?_⟩,
    ⟨?_, ?_, ?_, ?_, ?_⟩, ⟨?_, ?_, ?_, ?_, ?_⟩, ⟨?_, ?_, ?_, ?_, ?_, ?_⟩, ⟨?_, ?_, ?_, ?_, ?_, ?_⟩, ⟨?_, ?_, ?_, ?_⟩,
    ⟨?_, ?_, ?_, ?_⟩, ⟨?_, ?_, ?_⟩, ⟨?_, ?_⟩, ⟨?_, ?_, ?_⟩⟩ <;> decide +kernel

theorem witness_IndicationsTaken :
    (let s := motion .starting .sent .run plant; let src := controller; let c : Fin 4 := 0; let x := s.chan c;
      s.takesIndication src c ∧ (x.state = ChanState.starting ∧ x.phase = Phase.sent ∧ x.enable = true) ∧
      x.mode = MotionMode.run) ∧
    (let s := motion .starting .sent .jog plant; let src := controller; let c : Fin 4 := 0; let x := s.chan c;
      s.takesIndication src c ∧ (x.state = ChanState.starting ∧ x.phase = Phase.sent ∧ x.enable = true) ∧
      x.mode = MotionMode.jog) ∧
    (let s := motion .running .none .run plant; let src := controller; let c : Fin 4 := 0; let x := s.chan c;
      s.takesIndication src c ∧ (¬(x.state = ChanState.starting ∧ x.phase = Phase.sent ∧ x.enable = true))) ∧
    (let s := motion .running .none .run plant; let src := controller; let c : Fin 4 := 0; let x := s.chan c;
      let rest := (s.motorOff c).atIdle c;
      s.takesIndication src c ∧
      (x.state = ChanState.running ∨ x.state = ChanState.jogging ∨ x.state = ChanState.starting ∧ x.phase = Phase.sent
        ∧ x.enable = true) ∧ rest.shedFree) ∧
    (let s := manyShed (motion .starting .sent .run plant); let src := controller; let c : Fin 4 := 0;
      let x := s.chan c; let rest := (s.motorOff c).atIdle c;
      s.takesIndication src c ∧
      (x.state = ChanState.running ∨ x.state = ChanState.jogging ∨ x.state = ChanState.starting ∧ x.phase = Phase.sent
        ∧ x.enable = true) ∧ rest.shedFree) ∧
    (let s := motion .stopping .none .run plant; let src := controller; let c : Fin 4 := 0; let x := s.chan c;
      let rest := (s.motorOff c).atIdle c;
      s.takesIndication src c ∧ x.state = ChanState.stopping ∧ x.stopCause ≠ StopCause.stall ∧ rest.shedFree) ∧
    (let s := stalledStop; let src := controller; let c : Fin 4 := 0; let x := s.chan c;
      s.takesIndication src c ∧ x.state = ChanState.stopping ∧ x.stopCause = StopCause.stall ∧
      s.faultOpen c FaultCause.stall ∧ (s.faulting c FaultCause.stall).shedFree) ∧
    (let s := freeLine (manyShed stalledStop); let src := controller; let c : Fin 4 := 0; let x := s.chan c;
      s.takesIndication src c ∧ x.state = ChanState.stopping ∧ x.stopCause = StopCause.stall ∧
      s.faultOpen c FaultCause.stall ∧ (s.faulting c FaultCause.stall).shedFree) ∧
    (let s := plant; let src := controller; let c : Fin 4 := 0; let x := s.chan c;
      s.takesIndication src c ∧
      (¬(x.state = ChanState.running ∨ x.state = ChanState.jogging ∨ x.state = ChanState.starting ∧ x.phase =
        Phase.sent ∧ x.enable = true)) ∧ x.state ≠ ChanState.stopping) ∧
    (let s := motion .stopping .none .run plant; let src := controller; let c : Fin 4 := 0; let x := s.chan c;
      s.takesIndication src c ∧ x.state = ChanState.stopping) ∧
    (let s := inFault plant; let src := controller; let c : Fin 4 := 0; let x := s.chan c;
      s.takesIndication src c ∧
      (¬(x.state = ChanState.running ∨ x.state = ChanState.jogging ∨ x.state = ChanState.starting ∧ x.phase =
        Phase.sent ∧ x.enable = true)) ∧ x.state ≠ ChanState.stopping) := by
  refine ⟨⟨?_, ?_, ?_⟩, ⟨?_, ?_, ?_⟩, ⟨?_, ?_⟩, ⟨?_, ?_, ?_⟩, ⟨?_, ?_, ?_⟩, ⟨?_, ?_, ?_, ?_⟩, ⟨?_, ?_, ?_, ?_, ?_⟩,
    ⟨?_, ?_, ?_, ?_, ?_⟩, ⟨?_, ?_, ?_⟩, ⟨?_, ?_⟩, ⟨?_, ?_, ?_⟩⟩ <;> decide +kernel

theorem witness_ChannelFaults :
    (let s := plant; let src := controller; let c : Fin 4 := 0; let u := s.faulting c .controllerFault;
      s.takesIndication src c ∧ (s.chan c).state ≠ ChanState.off ∧ (s.chan c).state ≠ ChanState.fault ∧
      s.faultOpen c FaultCause.controllerFault ∧ (s.drives c = true → u.shedFree)) ∧
    (let s := armed; let src := controller; let c : Fin 4 := 0; let u := s.faulting c .controllerFault;
      s.takesIndication src c ∧ (s.chan c).state ≠ ChanState.off ∧ (s.chan c).state ≠ ChanState.fault ∧
      s.faultOpen c FaultCause.controllerFault ∧ (s.drives c = true → u.shedFree)) ∧
    (let s := freeLine plant; let src := controller; let c : Fin 4 := 0; let u := s.faulting c .controllerFault;
      s.takesIndication src c ∧ (s.chan c).state ≠ ChanState.off ∧ (s.chan c).state ≠ ChanState.fault ∧
      s.faultOpen c FaultCause.controllerFault ∧ (s.drives c = true → u.shedFree)) ∧
    (let s := inFault plant; let src := controller; let c : Fin 4 := 0;
      s.takesIndication src c ∧ ((s.chan c).state = ChanState.off ∨ (s.chan c).state = ChanState.fault)) ∧
    (let s := motion .starting .sent .run plant; let c : Fin 4 := 0; let d : Nat := 500;
      let at_ : State := { s with now := max s.now d }; let u := at_.faulting c .noStart;
      (s.chan c).timers.start = some d ∧ (s.chan c).state = ChanState.starting ∧ s.faultOpen c FaultCause.noStart ∧
      u.shedFree) ∧
    (let s := manyShed (motion .starting .sent .run plant); let c : Fin 4 := 0; let d : Nat := 500;
      let at_ : State := { s with now := max s.now d }; let u := at_.faulting c .noStart;
      (s.chan c).timers.start = some d ∧ (s.chan c).state = ChanState.starting ∧ s.faultOpen c FaultCause.noStart ∧
      u.shedFree) ∧
    (let s := motion .stopping .none .run plant; let c : Fin 4 := 0; let d : Nat := 2000;
      let at_ : State := { s with now := max s.now d }; let u := at_.faulting c .noStop;
      (s.chan c).timers.stop = some d ∧ (s.chan c).state = ChanState.stopping ∧ s.faultOpen c FaultCause.noStop ∧
      u.shedFree) ∧
    (let s := armed; let c : Fin 4 := 0; let d : Nat := 3000;
      (s.chan c).timers.arm = some d ∧ (s.chan c).state = ChanState.armed) := by
  refine ⟨⟨?_, ?_, ?_, ?_, ?_⟩, ⟨?_, ?_, ?_, ?_, ?_⟩, ⟨?_, ?_, ?_, ?_, ?_⟩, ⟨?_, ?_⟩, ⟨?_, ?_, ?_, ?_⟩, ⟨?_, ?_, ?_,
    ?_⟩, ⟨?_, ?_, ?_, ?_⟩, ⟨?_, ?_⟩⟩ <;> decide +kernel

theorem witness_LinesFault :
    (let s := rival (motion .running .none .run plant); let on := fun c : Fin 4 => (s.chan c).state.active;
      let u := State.faultingAll { s with ds := { s.ds with loopOpen := true } } on .estop;
      let released := decide (∃ c : Fin 4, s.drives c = true);
      s.ds.loopOpen = false ∧ (∀ c : Fin 4, on c = true → s.faultOpen c FaultCause.estop) ∧
      (released = true → u.shedFree)) ∧
    (let s := second .starting .queued (motion .running .none .run plant);
      let on := fun c : Fin 4 => (s.chan c).state.active;
      let u := State.faultingAll { s with ds := { s.ds with loopOpen := true } } on .estop;
      let released := decide (∃ c : Fin 4, s.drives c = true);
      s.ds.loopOpen = false ∧ (∀ c : Fin 4, on c = true → s.faultOpen c FaultCause.estop) ∧
      (released = true → u.shedFree)) ∧
    (let s := freeLine (manyShed (second .running .none (motion .running .none .run plant)));
      let on := fun c : Fin 4 => (s.chan c).state.active;
      let u := State.faultingAll { s with ds := { s.ds with loopOpen := true } } on .estop;
      let released := decide (∃ c : Fin 4, s.drives c = true);
      s.ds.loopOpen = false ∧ (∀ c : Fin 4, on c = true → s.faultOpen c FaultCause.estop) ∧
      (released = true → u.shedFree)) ∧
    (let s := rival (motion .running .none .run plant);
      s.ds.loopOpen = false) ∧
    (let s := inFault plant; let c : Fin 4 := 0;
      s.ds.trip[c.val] = false ∧ ((s.chan c).state = ChanState.off ∨ (s.chan c).state = ChanState.fault)) ∧
    (let s := armed; let c : Fin 4 := 0;
      let u : State := { s with ds := { s.ds with trip := upd s.ds.trip c fun _ => true } };
      let v := u.faulting c .trip;
      s.ds.trip[c.val] = false ∧ (s.chan c).state ≠ ChanState.off ∧ (s.chan c).state ≠ ChanState.fault ∧
      s.faultOpen c FaultCause.trip ∧ (s.drives c = true → v.shedFree)) ∧
    (let s := plant; let c : Fin 4 := 0;
      let u : State := { s with ds := { s.ds with trip := upd s.ds.trip c fun _ => true } };
      let v := u.faulting c .trip;
      s.ds.trip[c.val] = false ∧ (s.chan c).state ≠ ChanState.off ∧ (s.chan c).state ≠ ChanState.fault ∧
      s.faultOpen c FaultCause.trip ∧ (s.drives c = true → v.shedFree)) ∧
    (let s := motion .running .none .run plant; let c : Fin 4 := 0;
      let u : State := { s with ds := { s.ds with trip := upd s.ds.trip c fun _ => true } };
      let v := u.faulting c .trip;
      s.ds.trip[c.val] = false ∧ (s.chan c).state ≠ ChanState.off ∧ (s.chan c).state ≠ ChanState.fault ∧
      s.faultOpen c FaultCause.trip ∧ (s.drives c = true → v.shedFree)) := by
  refine ⟨⟨?_, ?_, ?_⟩, ⟨?_, ?_, ?_⟩, ⟨?_, ?_, ?_⟩, ?_, ⟨?_, ?_⟩, ⟨?_, ?_, ?_, ?_, ?_⟩, ⟨?_, ?_, ?_, ?_, ?_⟩, ⟨?_, ?_,
    ?_, ?_, ?_⟩⟩ <;> decide +kernel

theorem witness_StaleConditionStops :
    (let s := bothUse .running .none armed; let k : Fin 48 := 3; let v : Half := 9; let updated : Nat := 0;
      let u := State.interlockedAll { s with now := max s.now (updated + (s.ie.conditions[k.val]).limit + 1) } [k];
      let released := (List.finRange 4).any (s.withdraws [k]);
      s.pm.points[↑s.ie.conditions[k.val].point].state = PointState.valid v updated ∧
      s.ie.conditions[k.val].limit ≠ 0 ∧ (∃ c, s.watches [k] c = true) ∧ s.stopsOpen [k] = true ∧
      (released = true → u.shedFree)) ∧
    (let s := bothUse .starting .queued (motion .running .none .run plant); let k : Fin 48 := 3; let v : Half := 9;
      let updated : Nat := 0;
      let u := State.interlockedAll { s with now := max s.now (updated + (s.ie.conditions[k.val]).limit + 1) } [k];
      let released := (List.finRange 4).any (s.withdraws [k]);
      s.pm.points[↑s.ie.conditions[k.val].point].state = PointState.valid v updated ∧
      s.ie.conditions[k.val].limit ≠ 0 ∧ (∃ c, s.watches [k] c = true) ∧ s.stopsOpen [k] = true ∧
      (released = true → u.shedFree)) ∧
    (let s := freeLine (bothUse .jogging .none (motion .starting .sent .run plant)); let k : Fin 48 := 3;
      let v : Half := 9; let updated : Nat := 0;
      let u := State.interlockedAll { s with now := max s.now (updated + (s.ie.conditions[k.val]).limit + 1) } [k];
      let released := (List.finRange 4).any (s.withdraws [k]);
      s.pm.points[↑s.ie.conditions[k.val].point].state = PointState.valid v updated ∧
      s.ie.conditions[k.val].limit ≠ 0 ∧ (∃ c, s.watches [k] c = true) ∧ s.stopsOpen [k] = true ∧
      (released = true → u.shedFree)) ∧
    (let s := manyShed (awaited 9 (bothUse .armed .none (motion .starting .shedding .run plant)));
      let k : Fin 48 := 3; let v : Half := 9; let updated : Nat := 0;
      let u := State.interlockedAll { s with now := max s.now (updated + (s.ie.conditions[k.val]).limit + 1) } [k];
      let released := (List.finRange 4).any (s.withdraws [k]);
      s.pm.points[↑s.ie.conditions[k.val].point].state = PointState.valid v updated ∧
      s.ie.conditions[k.val].limit ≠ 0 ∧ (∃ c, s.watches [k] c = true) ∧ s.stopsOpen [k] = true ∧
      (released = true → u.shedFree)) ∧
    (let s := lowPoint (crossed (bothUse .running .none armed)); let k : Fin 48 := 3; let v : Half := 2;
      let updated : Nat := 0;
      let u := State.interlockedAll { s with now := max s.now (updated + (s.ie.conditions[k.val]).limit + 1) } [k];
      let released := (List.finRange 4).any (s.withdraws [k]);
      s.pm.points[↑s.ie.conditions[k.val].point].state = PointState.valid v updated ∧
      s.ie.conditions[k.val].limit ≠ 0 ∧ (∃ c, s.watches [k] c = true) ∧ s.stopsOpen [k] = true ∧
      (released = true → u.shedFree)) ∧
    (let s := bothUse .starting .sent (motion .stopping .none .run plant); let k : Fin 48 := 3; let v : Half := 9;
      let updated : Nat := 0;
      let u := State.interlockedAll { s with now := max s.now (updated + (s.ie.conditions[k.val]).limit + 1) } [k];
      let released := (List.finRange 4).any (s.withdraws [k]);
      s.pm.points[↑s.ie.conditions[k.val].point].state = PointState.valid v updated ∧
      s.ie.conditions[k.val].limit ≠ 0 ∧ (∃ c, s.watches [k] c = true) ∧ s.stopsOpen [k] = true ∧
      (released = true → u.shedFree)) ∧
    (let s := armed; let k : Fin 48 := 3; let v : Half := 9; let updated : Nat := 0;
      let u := State.interlockedAll { s with now := max s.now (updated + (s.ie.conditions[k.val]).limit + 1) } [k];
      let released := (List.finRange 4).any (s.withdraws [k]);
      s.pm.points[↑s.ie.conditions[k.val].point].state = PointState.valid v updated ∧
      s.ie.conditions[k.val].limit ≠ 0 ∧ (∃ c, s.watches [k] c = true) ∧ s.stopsOpen [k] = true ∧
      (released = true → u.shedFree)) ∧
    (let s := motion .running .none .run plant; let k : Fin 48 := 3; let v : Half := 9; let updated : Nat := 0;
      let u := State.interlockedAll { s with now := max s.now (updated + (s.ie.conditions[k.val]).limit + 1) } [k];
      let released := (List.finRange 4).any (s.withdraws [k]);
      s.pm.points[↑s.ie.conditions[k.val].point].state = PointState.valid v updated ∧
      s.ie.conditions[k.val].limit ≠ 0 ∧ (∃ c, s.watches [k] c = true) ∧ s.stopsOpen [k] = true ∧
      (released = true → u.shedFree)) ∧
    (let s := motion .jogging .none .run plant; let k : Fin 48 := 3; let v : Half := 9; let updated : Nat := 0;
      let u := State.interlockedAll { s with now := max s.now (updated + (s.ie.conditions[k.val]).limit + 1) } [k];
      let released := (List.finRange 4).any (s.withdraws [k]);
      s.pm.points[↑s.ie.conditions[k.val].point].state = PointState.valid v updated ∧
      s.ie.conditions[k.val].limit ≠ 0 ∧ (∃ c, s.watches [k] c = true) ∧ s.stopsOpen [k] = true ∧
      (released = true → u.shedFree)) ∧
    (let s := freeLine (motion .starting .sent .run plant); let k : Fin 48 := 3; let v : Half := 9;
      let updated : Nat := 0;
      let u := State.interlockedAll { s with now := max s.now (updated + (s.ie.conditions[k.val]).limit + 1) } [k];
      let released := (List.finRange 4).any (s.withdraws [k]);
      s.pm.points[↑s.ie.conditions[k.val].point].state = PointState.valid v updated ∧
      s.ie.conditions[k.val].limit ≠ 0 ∧ (∃ c, s.watches [k] c = true) ∧ s.stopsOpen [k] = true ∧
      (released = true → u.shedFree)) ∧
    (let s := startQueued; let k : Fin 48 := 3; let v : Half := 9; let updated : Nat := 0;
      let u := State.interlockedAll { s with now := max s.now (updated + (s.ie.conditions[k.val]).limit + 1) } [k];
      let released := (List.finRange 4).any (s.withdraws [k]);
      s.pm.points[↑s.ie.conditions[k.val].point].state = PointState.valid v updated ∧
      s.ie.conditions[k.val].limit ≠ 0 ∧ (∃ c, s.watches [k] c = true) ∧ s.stopsOpen [k] = true ∧
      (released = true → u.shedFree)) ∧
    (let s := shedding (manyShed plant); let k : Fin 48 := 3; let v : Half := 9; let updated : Nat := 0;
      let u := State.interlockedAll { s with now := max s.now (updated + (s.ie.conditions[k.val]).limit + 1) } [k];
      let released := (List.finRange 4).any (s.withdraws [k]);
      s.pm.points[↑s.ie.conditions[k.val].point].state = PointState.valid v updated ∧
      s.ie.conditions[k.val].limit ≠ 0 ∧ (∃ c, s.watches [k] c = true) ∧ s.stopsOpen [k] = true ∧
      (released = true → u.shedFree)) := by
  refine ⟨⟨?_, ?_, ?_, ?_, ?_⟩, ⟨?_, ?_, ?_, ?_, ?_⟩, ⟨?_, ?_, ?_, ?_, ?_⟩, ⟨?_, ?_, ?_, ?_, ?_⟩, ⟨?_, ?_, ?_, ?_,
    ?_⟩, ⟨?_, ?_, ?_, ?_, ?_⟩, ⟨?_, ?_, ?_, ?_, ?_⟩, ⟨?_, ?_, ?_, ?_, ?_⟩, ⟨?_, ?_, ?_, ?_, ?_⟩, ⟨?_, ?_, ?_, ?_, ?_⟩,
    ⟨?_, ?_, ?_, ?_, ?_⟩, ⟨?_, ?_, ?_, ?_, ?_⟩⟩ <;> decide +kernel

theorem witness_ScenesAndActionsStored :
    (let s := crowded; let src := stationZ; let index : Half := 5; let record : List Byte := [0, 0, 0, 0];
      let n : Fin 128 := 5; let r := decodeScene record; let i : Fin 4 := 0;
      s.canAnswer src ∧ record.length = 4 ∧ index.toNat = n.val ∧
      (r.valid = true → 1 ≤ r.count ∧ r.count ≤ 32 ∧ r.first + r.count ≤ 1024) ∧
      (Option.any (fun a => a.scene == n) s.sx.slots[i.val] = true) ∧
      (∀ j : Fin 4, j < i → Option.any (fun a => a.scene == n) s.sx.slots[j.val] = false) ∧
      (∀ j : Fin 4, j ≠ i → s.sx.slots[j.val].isSome = true → ∃ d, d ∈ s.sx.delayed ∧ d.slot = j)) ∧
    (let s := managed; let src := station; let index : Half := 127; let record : List Byte := [1, 3, 0xE1, 32];
      let n : Fin 128 := 127; let r := decodeScene record;
      s.canAnswer src ∧ record.length = 4 ∧ index.toNat = n.val ∧
      (¬(r.valid = true → 1 ≤ r.count ∧ r.count ≤ 32 ∧ r.first + r.count ≤ 1024))) ∧
    (let s := managed; let src := station; let index : Half := 127; let record : List Byte := [1, 3, 0xE0, 32];
      let n : Fin 128 := 127; let r := decodeScene record;
      s.canAnswer src ∧ record.length = 4 ∧ index.toNat = n.val ∧
      (r.valid = true → 1 ≤ r.count ∧ r.count ≤ 32 ∧ r.first + r.count ≤ 1024) ∧
      (∀ (j : Fin 4) (a : SceneSlot), s.sx.slots[j.val] = some a → a.scene ≠ n)) ∧
    (let s := sceneWaiting; let src := station; let index : Half := 3; let record : List Byte := [0, 0, 0, 0];
      let n : Fin 128 := 3; let r := decodeScene record; let i : Fin 4 := 0;
      s.canAnswer src ∧ record.length = 4 ∧ index.toNat = n.val ∧
      (r.valid = true → 1 ≤ r.count ∧ r.count ≤ 32 ∧ r.first + r.count ≤ 1024) ∧
      (Option.any (fun a => a.scene == n) s.sx.slots[i.val] = true) ∧
      (∀ j : Fin 4, j < i → Option.any (fun a => a.scene == n) s.sx.slots[j.val] = false) ∧
      (∀ j : Fin 4, j ≠ i → s.sx.slots[j.val].isSome = true → ∃ d, d ∈ s.sx.delayed ∧ d.slot = j)) ∧
    (let s := staged; let src := station; let index : Half := 0; let record : List Byte := [1, 8, 0, 0, 0, 0];
      let count : Nat := 1;
      s.canAnswer src ∧ 1 ≤ count ∧ count ≤ 3 ∧ record.length = 1 + 5 * count ∧ byteAt record 0 = byteOf count ∧
      index.toNat + count ≤ 1024 ∧
      (∃ k : Fin 3, k.val < count ∧ ∃ n : Fin 128, s.sx.scenes[n.val].valid = true ∧ s.sx.scenes[n.val].first ≤
        index.toNat + k.val ∧ index.toNat + k.val < s.sx.scenes[n.val].first + s.sx.scenes[n.val].count)) ∧
    (let s := staged; let src := station; let index : Half := 1023; let record : List Byte := [1, 96, 0, 0, 0, 0];
      let count : Nat := 1; let a := fun k : Nat => decodeAction record k;
      s.canAnswer src ∧ 1 ≤ count ∧ count ≤ 3 ∧ record.length = 1 + 5 * count ∧ byteAt record 0 = byteOf count ∧
      index.toNat + count ≤ 1024 ∧
      (¬∃ k : Fin 3, k.val < count ∧ ∃ n : Fin 128, s.sx.scenes[n.val].valid = true ∧ s.sx.scenes[n.val].first ≤
        index.toNat + k.val ∧ index.toNat + k.val < s.sx.scenes[n.val].first + s.sx.scenes[n.val].count) ∧
      (∃ k : Fin 3, k.val < count ∧ 95 < (a k.val).load)) ∧
    (let s := staged; let src := station; let index : Half := 1023; let record : List Byte := [1, 95, 3, 0xE9, 0, 0];
      let count : Nat := 1; let a := fun k : Nat => decodeAction record k;
      s.canAnswer src ∧ 1 ≤ count ∧ count ≤ 3 ∧ record.length = 1 + 5 * count ∧ byteAt record 0 = byteOf count ∧
      index.toNat + count ≤ 1024 ∧
      (¬∃ k : Fin 3, k.val < count ∧ ∃ n : Fin 128, s.sx.scenes[n.val].valid = true ∧ s.sx.scenes[n.val].first ≤
        index.toNat + k.val ∧ index.toNat + k.val < s.sx.scenes[n.val].first + s.sx.scenes[n.val].count) ∧
      (¬∃ k : Fin 3, k.val < count ∧ 95 < (a k.val).load)) ∧
    (let s := staged; let src := station; let index : Half := 1022;
      let record : List Byte := [2, 95, 3, 0xE8, 0, 0, 3, 1, 2, 3, 4]; let count : Nat := 2;
      let a := fun k : Nat => decodeAction record k;
      s.canAnswer src ∧ 1 ≤ count ∧ count ≤ 3 ∧ record.length = 1 + 5 * count ∧ byteAt record 0 = byteOf count ∧
      index.toNat + count ≤ 1024 ∧
      (¬∃ k : Fin 3, k.val < count ∧ ∃ n : Fin 128, s.sx.scenes[n.val].valid = true ∧ s.sx.scenes[n.val].first ≤
        index.toNat + k.val ∧ index.toNat + k.val < s.sx.scenes[n.val].first + s.sx.scenes[n.val].count) ∧
      (¬∃ k : Fin 3, k.val < count ∧ 95 < (a k.val).load)) ∧
    (let s := staged; let src := station; let index : Half := 1021;
      let record : List Byte := [3, 95, 3, 0xE8, 0, 0, 3, 1, 2, 3, 4, 6, 0xFF, 0xFF, 9, 1]; let count : Nat := 3;
      let a := fun k : Nat => decodeAction record k;
      s.canAnswer src ∧ 1 ≤ count ∧ count ≤ 3 ∧ record.length = 1 + 5 * count ∧ byteAt record 0 = byteOf count ∧
      index.toNat + count ≤ 1024 ∧
      (¬∃ k : Fin 3, k.val < count ∧ ∃ n : Fin 128, s.sx.scenes[n.val].valid = true ∧ s.sx.scenes[n.val].first ≤
        index.toNat + k.val ∧ index.toNat + k.val < s.sx.scenes[n.val].first + s.sx.scenes[n.val].count) ∧
      (¬∃ k : Fin 3, k.val < count ∧ 95 < (a k.val).load)) ∧
    (let s := staged; let src := station; let index : Half := 1022;
      let record : List Byte := [2, 95, 3, 0xE8, 0, 0, 96, 1, 2, 3, 4]; let count : Nat := 2;
      let a := fun k : Nat => decodeAction record k;
      s.canAnswer src ∧ 1 ≤ count ∧ count ≤ 3 ∧ record.length = 1 + 5 * count ∧ byteAt record 0 = byteOf count ∧
      index.toNat + count ≤ 1024 ∧
      (¬∃ k : Fin 3, k.val < count ∧ ∃ n : Fin 128, s.sx.scenes[n.val].valid = true ∧ s.sx.scenes[n.val].first ≤
        index.toNat + k.val ∧ index.toNat + k.val < s.sx.scenes[n.val].first + s.sx.scenes[n.val].count) ∧
      (∃ k : Fin 3, k.val < count ∧ 95 < (a k.val).load)) ∧
    (let s := staged; let src := station; let index : Half := 1;
      let record : List Byte := [3, 95, 3, 0xE8, 0, 0, 3, 1, 2, 3, 4, 255, 0xFF, 0xFF, 9, 1]; let count : Nat := 3;
      let a := fun k : Nat => decodeAction record k;
      s.canAnswer src ∧ 1 ≤ count ∧ count ≤ 3 ∧ record.length = 1 + 5 * count ∧ byteAt record 0 = byteOf count ∧
      index.toNat + count ≤ 1024 ∧
      (¬∃ k : Fin 3, k.val < count ∧ ∃ n : Fin 128, s.sx.scenes[n.val].valid = true ∧ s.sx.scenes[n.val].first ≤
        index.toNat + k.val ∧ index.toNat + k.val < s.sx.scenes[n.val].first + s.sx.scenes[n.val].count) ∧
      (∃ k : Fin 3, k.val < count ∧ 95 < (a k.val).load)) ∧
    (let s := reserved; let src := station; let index : Half := 7;
      let record : List Byte := [3, 95, 3, 0xE8, 0, 0, 3, 1, 2, 3, 4, 255, 0xFF, 0xFF, 9, 1]; let count : Nat := 3;
      s.canAnswer src ∧ 1 ≤ count ∧ count ≤ 3 ∧ record.length = 1 + 5 * count ∧ byteAt record 0 = byteOf count ∧
      index.toNat + count ≤ 1024 ∧
      (∃ k : Fin 3, k.val < count ∧ ∃ n : Fin 128, s.sx.scenes[n.val].valid = true ∧ s.sx.scenes[n.val].first ≤
        index.toNat + k.val ∧ index.toNat + k.val < s.sx.scenes[n.val].first + s.sx.scenes[n.val].count)) ∧
    (let s := restarting; let src := station; let index : Half := 3; let record : List Byte := [1, 3, 0xE0, 32];
      let n : Fin 128 := 3; let r := decodeScene record; let i : Fin 4 := 2;
      s.canAnswer src ∧ record.length = 4 ∧ index.toNat = n.val ∧
      (r.valid = true → 1 ≤ r.count ∧ r.count ≤ 32 ∧ r.first + r.count ≤ 1024) ∧
      (Option.any (fun a => a.scene == n) s.sx.slots[i.val] = true) ∧
      (∀ j : Fin 4, j < i → Option.any (fun a => a.scene == n) s.sx.slots[j.val] = false) ∧
      (∀ j : Fin 4, j ≠ i → s.sx.slots[j.val].isSome = true → ∃ d, d ∈ s.sx.delayed ∧ d.slot = j)) := by
  refine ⟨?_, ?_, ?_, ?_, ?_, ?_, ?_, ?_, ?_, ?_, ?_, ?_, ?_⟩ <;> decide +kernel

theorem witness_RequestsNotCarriedOut :
    (let s := freeLine managed; let src := stationZ; let p : List Byte := [0, 7];
      discarded s src = false ∧ s.canAnswer src ∧ 2 ≤ p.length ∧ wrongCode p) ∧
    (let s := jammed managed; let src := stationZ; let p : List Byte := [6, 7, 5, 64];
      discarded s src = false ∧ s.canAnswer src ∧ 2 ≤ p.length ∧ ¬wrongCode p ∧ ¬wrongTable p ∧ ¬wrongLength p ∧
      ¬wrongIndex p ∧ wrongValue p) ∧
    (let s := jammed managed; let src := stationZ;
      s.takesRequest src ∧ s.takesReply src.port = false) ∧
    (let s := managed; let src := console;
      discarded s src = false ∧ s.mr.accepts src.origin = false) ∧
    (let s := empty managed; let src := station;
      discarded s src = false ∧ s.mr.accepts src.origin = true ∧ s.pool.freeCount = 0) ∧
    (let s := managed; let src := station; let p : List Byte := [1];
      discarded s src = false ∧ s.takesRequest src ∧ p.length < 2) ∧
    (let s := restLinks managed; let src := stationB; let p : List Byte := [4, 7, 255];
      discarded s src = false ∧ s.canAnswer src ∧ 2 ≤ p.length ∧ ¬wrongCode p ∧ wrongTable p) ∧
    (let s := managed; let src := station; let p : List Byte := [0, 7];
      discarded s src = false ∧ s.canAnswer src ∧ 2 ≤ p.length ∧ wrongCode p) ∧
    (let s := managed; let src := station; let p : List Byte := [11, 7];
      discarded s src = false ∧ s.canAnswer src ∧ 2 ≤ p.length ∧ wrongCode p) ∧
    (let s := managed; let src := station; let p : List Byte := [255, 7, 1];
      discarded s src = false ∧ s.canAnswer src ∧ 2 ≤ p.length ∧ wrongCode p) ∧
    (let s := managed; let src := station; let p : List Byte := [3, 7, 10, 0, 0];
      discarded s src = false ∧ s.canAnswer src ∧ 2 ≤ p.length ∧ ¬wrongCode p ∧ wrongTable p) ∧
    (let s := managed; let src := station; let p : List Byte := [4, 7, 255];
      discarded s src = false ∧ s.canAnswer src ∧ 2 ≤ p.length ∧ ¬wrongCode p ∧ wrongTable p) ∧
    (let s := managed; let src := station; let p : List Byte := [1, 7, 0];
      discarded s src = false ∧ s.canAnswer src ∧ 2 ≤ p.length ∧ ¬wrongCode p ∧ ¬wrongTable p ∧ wrongLength p) ∧
    (let s := managed; let src := station; let p : List Byte := [2, 7];
      discarded s src = false ∧ s.canAnswer src ∧ 2 ≤ p.length ∧ ¬wrongCode p ∧ ¬wrongTable p ∧ wrongLength p) ∧
    (let s := managed; let src := station; let p : List Byte := [3, 7];
      discarded s src = false ∧ s.canAnswer src ∧ 2 ≤ p.length ∧ ¬wrongCode p ∧ ¬wrongTable p ∧ wrongLength p) ∧
    (let s := managed; let src := station; let p : List Byte := [4, 7];
      discarded s src = false ∧ s.canAnswer src ∧ 2 ≤ p.length ∧ ¬wrongCode p ∧ ¬wrongTable p ∧ wrongLength p) ∧
    (let s := managed; let src := station; let p : List Byte := [3, 7, 5];
      discarded s src = false ∧ s.canAnswer src ∧ 2 ≤ p.length ∧ ¬wrongCode p ∧ ¬wrongTable p ∧ wrongLength p) ∧
    (let s := managed; let src := station; let p : List Byte := [5, 7, 4, 0];
      discarded s src = false ∧ s.canAnswer src ∧ 2 ≤ p.length ∧ ¬wrongCode p ∧ ¬wrongTable p ∧ wrongLength p) ∧
    (let s := managed; let src := station; let p : List Byte := [6, 7, 4];
      discarded s src = false ∧ s.canAnswer src ∧ 2 ≤ p.length ∧ ¬wrongCode p ∧ ¬wrongTable p ∧ wrongLength p) ∧
    (let s := managed; let src := station; let p : List Byte := [4, 7, 5, 0, 0, 0];
      discarded s src = false ∧ s.canAnswer src ∧ 2 ≤ p.length ∧ ¬wrongCode p ∧ ¬wrongTable p ∧ wrongLength p) ∧
    (let s := managed; let src := station; let p : List Byte := [4, 7, 7, 0, 0, 0];
      discarded s src = false ∧ s.canAnswer src ∧ 2 ≤ p.length ∧ ¬wrongCode p ∧ ¬wrongTable p ∧ wrongLength p) ∧
    (let s := managed; let src := station; let p : List Byte := [4, 7, 7, 0, 0, 4];
      discarded s src = false ∧ s.canAnswer src ∧ 2 ≤ p.length ∧ ¬wrongCode p ∧ ¬wrongTable p ∧ wrongLength p) ∧
    (let s := managed; let src := station; let p : List Byte := [3, 7, 7, 0, 0, 4, 0];
      discarded s src = false ∧ s.canAnswer src ∧ 2 ≤ p.length ∧ ¬wrongCode p ∧ ¬wrongTable p ∧ wrongLength p) ∧
    (let s := managed; let src := station; let p : List Byte := 3 :: 7 :: 7 :: List.replicate 11 0;
      discarded s src = false ∧ s.canAnswer src ∧ 2 ≤ p.length ∧ ¬wrongCode p ∧ ¬wrongTable p ∧ wrongLength p) ∧
    (let s := managed; let src := station; let p : List Byte := 3 :: 7 :: 0 :: List.replicate 9 0;
      discarded s src = false ∧ s.canAnswer src ∧ 2 ≤ p.length ∧ ¬wrongCode p ∧ ¬wrongTable p ∧ wrongLength p) ∧
    (let s := managed; let src := station; let p : List Byte := [3, 7, 5, 3, 0];
      discarded s src = false ∧ s.canAnswer src ∧ 2 ≤ p.length ∧ ¬wrongCode p ∧ ¬wrongTable p ∧ wrongLength p) ∧
    (let s := managed; let src := station; let p : List Byte := [10, 7, 0];
      discarded s src = false ∧ s.canAnswer src ∧ 2 ≤ p.length ∧ ¬wrongCode p ∧ ¬wrongTable p ∧ wrongLength p) ∧
    (let s := managed; let src := station; let p : List Byte := [3, 7, 9, 0, 1];
      discarded s src = false ∧ s.canAnswer src ∧ 2 ≤ p.length ∧ ¬wrongCode p ∧ ¬wrongTable p ∧ wrongLength p) ∧
    (let s := managed; let src := station; let p : List Byte := [3, 7, 5, 4];
      discarded s src = false ∧ s.canAnswer src ∧ 2 ≤ p.length ∧ ¬wrongCode p ∧ ¬wrongTable p ∧ ¬wrongLength p ∧
      wrongIndex p) ∧
    (let s := managed; let src := station; let p : List Byte := [3, 7, 9, 0, 1, 1];
      discarded s src = false ∧ s.canAnswer src ∧ 2 ≤ p.length ∧ ¬wrongCode p ∧ ¬wrongTable p ∧ ¬wrongLength p ∧
      wrongIndex p) ∧
    (let s := managed; let src := station; let p : List Byte := [4, 7, 1, 0, 96];
      discarded s src = false ∧ s.canAnswer src ∧ 2 ≤ p.length ∧ ¬wrongCode p ∧ ¬wrongTable p ∧ ¬wrongLength p ∧
      wrongIndex p) ∧
    (let s := managed; let src := station; let p : List Byte := [4, 7, 5, 4, 0];
      discarded s src = false ∧ s.canAnswer src ∧ 2 ≤ p.length ∧ ¬wrongCode p ∧ ¬wrongTable p ∧ ¬wrongLength p ∧
      wrongIndex p) ∧
    (let s := managed; let src := station; let p : List Byte := [4, 7, 5, 0, 4];
      discarded s src = false ∧ s.canAnswer src ∧ 2 ≤ p.length ∧ ¬wrongCode p ∧ ¬wrongTable p ∧ ¬wrongLength p ∧
      wrongIndex p) ∧
    (let s := managed; let src := station; let p : List Byte := [4, 7, 7, 3, 254, 3];
      discarded s src = false ∧ s.canAnswer src ∧ 2 ≤ p.length ∧ ¬wrongCode p ∧ ¬wrongTable p ∧ ¬wrongLength p ∧
      wrongIndex p) ∧
    (let s := managed; let src := station; let p : List Byte := [3, 7, 7, 4, 0, 1, 0, 0, 0, 0, 0];
      discarded s src = false ∧ s.canAnswer src ∧ 2 ≤ p.length ∧ ¬wrongCode p ∧ ¬wrongTable p ∧ ¬wrongLength p ∧
      wrongIndex p) ∧
    (let s := managed; let src := station; let p : List Byte := [5, 7, 4, 3, 2];
      discarded s src = false ∧ s.canAnswer src ∧ 2 ≤ p.length ∧ ¬wrongCode p ∧ ¬wrongTable p ∧ ¬wrongLength p ∧
      wrongIndex p) ∧
    (let s := managed; let src := station; let p : List Byte := [5, 7, 3, 1, 0];
      discarded s src = false ∧ s.canAnswer src ∧ 2 ≤ p.length ∧ ¬wrongCode p ∧ ¬wrongTable p ∧ ¬wrongLength p ∧
      wrongIndex p) ∧
    (let s := managed; let src := station; let p : List Byte := [6, 7, 4, 64];
      discarded s src = false ∧ s.canAnswer src ∧ 2 ≤ p.length ∧ ¬wrongCode p ∧ ¬wrongTable p ∧ ¬wrongLength p ∧
      wrongIndex p) ∧
    (let s := managed; let src := station; let p : List Byte := [7, 7, 128];
      discarded s src = false ∧ s.canAnswer src ∧ 2 ≤ p.length ∧ ¬wrongCode p ∧ ¬wrongTable p ∧ ¬wrongLength p ∧
      wrongIndex p) ∧
    (let s := managed; let src := station; let p : List Byte := [8, 7, 4];
      discarded s src = false ∧ s.canAnswer src ∧ 2 ≤ p.length ∧ ¬wrongCode p ∧ ¬wrongTable p ∧ ¬wrongLength p ∧
      wrongIndex p) ∧
    (let s := managed; let src := station; let p : List Byte := [3, 7, 5, 0, 4, 0, 0, 96];
      discarded s src = false ∧ s.canAnswer src ∧ 2 ≤ p.length ∧ ¬wrongCode p ∧ ¬wrongTable p ∧ ¬wrongLength p ∧
      wrongIndex p) ∧
    (let s := managed; let src := station; let p : List Byte := 3 :: 7 :: 1 :: 0 :: 96 :: List.replicate 10 255;
      discarded s src = false ∧ s.canAnswer src ∧ 2 ≤ p.length ∧ ¬wrongCode p ∧ ¬wrongTable p ∧ ¬wrongLength p ∧
      wrongIndex p) ∧
    (let s := managed; let src := station; let p : List Byte := [2, 7, 0];
      discarded s src = false ∧ s.canAnswer src ∧ 2 ≤ p.length ∧ ¬wrongCode p ∧ ¬wrongTable p ∧ ¬wrongLength p ∧
      ¬wrongIndex p ∧ wrongValue p) ∧
    (let s := managed; let src := station; let p : List Byte := [2, 7, 61];
      discarded s src = false ∧ s.canAnswer src ∧ 2 ≤ p.length ∧ ¬wrongCode p ∧ ¬wrongTable p ∧ ¬wrongLength p ∧
      ¬wrongIndex p ∧ wrongValue p) ∧
    (let s := managed; let src := station; let p : List Byte := [5, 7, 5, 255, 0];
      discarded s src = false ∧ s.canAnswer src ∧ 2 ≤ p.length ∧ ¬wrongCode p ∧ ¬wrongTable p ∧ ¬wrongLength p ∧
      ¬wrongIndex p ∧ wrongValue p) ∧
    (let s := managed; let src := station; let p : List Byte := [5, 7, 0, 3, 2];
      discarded s src = false ∧ s.canAnswer src ∧ 2 ≤ p.length ∧ ¬wrongCode p ∧ ¬wrongTable p ∧ ¬wrongLength p ∧
      ¬wrongIndex p ∧ wrongValue p) ∧
    (let s := managed; let src := station; let p : List Byte := [6, 7, 5, 64];
      discarded s src = false ∧ s.canAnswer src ∧ 2 ≤ p.length ∧ ¬wrongCode p ∧ ¬wrongTable p ∧ ¬wrongLength p ∧
      ¬wrongIndex p ∧ wrongValue p) ∧
    (let s := managed; let src := station; let p : List Byte := 3 :: 7 :: 0 :: 0 :: 0 :: [0xFE, 0, 0, 0, 0, 0, 0, 0];
      discarded s src = false ∧ s.canAnswer src ∧ 2 ≤ p.length ∧ ¬wrongCode p ∧ ¬wrongTable p ∧ ¬wrongLength p ∧
      ¬wrongIndex p ∧ wrongValue p) ∧
    (let s := managed; let src := station; let p : List Byte := 3 :: 7 :: 0 :: 0 :: 0 :: [0xE0, 16, 0, 0, 0, 0, 0, 0];
      discarded s src = false ∧ s.canAnswer src ∧ 2 ≤ p.length ∧ ¬wrongCode p ∧ ¬wrongTable p ∧ ¬wrongLength p ∧
      ¬wrongIndex p ∧ wrongValue p) ∧
    (let s := managed; let src := station; let p : List Byte := 3 :: 7 :: 0 :: 0 :: 0 :: [0xD0, 0, 4, 0, 0, 0, 0, 0];
      discarded s src = false ∧ s.canAnswer src ∧ 2 ≤ p.length ∧ ¬wrongCode p ∧ ¬wrongTable p ∧ ¬wrongLength p ∧
      ¬wrongIndex p ∧ wrongValue p) ∧
    (let s := managed; let src := station; let p : List Byte := 3 :: 7 :: 0 :: 0 :: 0 :: [0xB0, 0, 0, 64, 0, 0, 0, 0];
      discarded s src = false ∧ s.canAnswer src ∧ 2 ≤ p.length ∧ ¬wrongCode p ∧ ¬wrongTable p ∧ ¬wrongLength p ∧
      ¬wrongIndex p ∧ wrongValue p) ∧
    (let s := managed; let src := station; let p : List Byte := 3 :: 7 :: 0 :: 0 :: 0 :: [0x70, 0, 0, 0, 0, 61, 0, 0];
      discarded s src = false ∧ s.canAnswer src ∧ 2 ≤ p.length ∧ ¬wrongCode p ∧ ¬wrongTable p ∧ ¬wrongLength p ∧
      ¬wrongIndex p ∧ wrongValue p) ∧
    (let s := managed; let src := station; let p : List Byte := 3 :: 7 :: 0 :: 0 :: 0 :: [0xF0, 0, 0, 0, 0, 0, 5, 0];
      discarded s src = false ∧ s.canAnswer src ∧ 2 ≤ p.length ∧ ¬wrongCode p ∧ ¬wrongTable p ∧ ¬wrongLength p ∧
      ¬wrongIndex p ∧ wrongValue p) ∧
    (let s := managed; let src := station; let p : List Byte := 3 :: 7 :: 0 :: 0 :: 0 :: [0xF8, 0, 0, 0, 0, 0, 0, 0];
      discarded s src = false ∧ s.canAnswer src ∧ 2 ≤ p.length ∧ ¬wrongCode p ∧ ¬wrongTable p ∧ ¬wrongLength p ∧
      ¬wrongIndex p ∧ wrongValue p) ∧
    (let s := managed; let src := station; let p : List Byte := 3 :: 7 :: 1 :: 0 :: 0 :: 6 :: List.replicate 9 0;
      discarded s src = false ∧ s.canAnswer src ∧ 2 ≤ p.length ∧ ¬wrongCode p ∧ ¬wrongTable p ∧ ¬wrongLength p ∧
      ¬wrongIndex p ∧ wrongValue p) ∧
    (let s := managed; let src := station;
      let p : List Byte := 3 :: 7 :: 1 :: 0 :: 0 :: 0 :: 0 :: 8 :: List.replicate 7 0;
      discarded s src = false ∧ s.canAnswer src ∧ 2 ≤ p.length ∧ ¬wrongCode p ∧ ¬wrongTable p ∧ ¬wrongLength p ∧
      ¬wrongIndex p ∧ wrongValue p) ∧
    (let s := managed; let src := station; let p : List Byte := [3, 7, 3, 0, 0, 1, 0, 0, 10];
      discarded s src = false ∧ s.canAnswer src ∧ 2 ≤ p.length ∧ ¬wrongCode p ∧ ¬wrongTable p ∧ ¬wrongLength p ∧
      ¬wrongIndex p ∧ wrongValue p) ∧
    (let s := managed; let src := station; let p : List Byte := [3, 7, 4, 0, 0, 12, 0, 0, 0, 0, 0];
      discarded s src = false ∧ s.canAnswer src ∧ 2 ≤ p.length ∧ ¬wrongCode p ∧ ¬wrongTable p ∧ ¬wrongLength p ∧
      ¬wrongIndex p ∧ wrongValue p) ∧
    (let s := managed; let src := station; let p : List Byte := [3, 7, 4, 0, 0, 0, 64, 0, 0, 0, 0];
      discarded s src = false ∧ s.canAnswer src ∧ 2 ≤ p.length ∧ ¬wrongCode p ∧ ¬wrongTable p ∧ ¬wrongLength p ∧
      ¬wrongIndex p ∧ wrongValue p) ∧
    (let s := managed; let src := station; let p : List Byte := [3, 7, 5, 0, 0, 0, 0, 96];
      discarded s src = false ∧ s.canAnswer src ∧ 2 ≤ p.length ∧ ¬wrongCode p ∧ ¬wrongTable p ∧ ¬wrongLength p ∧
      ¬wrongIndex p ∧ wrongValue p) ∧
    (let s := managed; let src := station; let p : List Byte := 3 :: 7 :: 5 :: 1 :: 0 :: 5 :: List.replicate 8 0;
      discarded s src = false ∧ s.canAnswer src ∧ 2 ≤ p.length ∧ ¬wrongCode p ∧ ¬wrongTable p ∧ ¬wrongLength p ∧
      ¬wrongIndex p ∧ wrongValue p) ∧
    (let s := managed; let src := station; let p : List Byte := 3 :: 7 :: 5 :: 3 :: 0 :: 7 :: List.replicate 13 0;
      discarded s src = false ∧ s.canAnswer src ∧ 2 ≤ p.length ∧ ¬wrongCode p ∧ ¬wrongTable p ∧ ¬wrongLength p ∧
      ¬wrongIndex p ∧ wrongValue p) ∧
    (let s := managed; let src := station;
      let p : List Byte := 3 :: 7 :: 5 :: 3 :: 0 :: 6 :: 0 :: 0 :: 0 :: 0 :: 0 :: 48 :: List.replicate 7 0;
      discarded s src = false ∧ s.canAnswer src ∧ 2 ≤ p.length ∧ ¬wrongCode p ∧ ¬wrongTable p ∧ ¬wrongLength p ∧
      ¬wrongIndex p ∧ wrongValue p) ∧
    (let s := managed; let src := station; let p : List Byte := [3, 7, 9, 0, 0, 16];
      discarded s src = false ∧ s.canAnswer src ∧ 2 ≤ p.length ∧ ¬wrongCode p ∧ ¬wrongTable p ∧ ¬wrongLength p ∧
      ¬wrongIndex p ∧ wrongValue p) ∧
    (let s := managed; let src := station; let p : List Byte := [3, 7, 9, 0, 0, 0];
      discarded s src = false ∧ s.canAnswer src ∧ 2 ≤ p.length ∧ ¬wrongCode p ∧ ¬wrongTable p ∧ ¬wrongLength p ∧
      ¬wrongIndex p ∧ wrongValue p) ∧
    (let s := cutOff managed; let src : Source := { station with port := .b };
      s.takesRequest src ∧ s.takesReply src.port = false) := by
  refine ⟨⟨?_, ?_, ?_, ?_⟩, ⟨?_, ?_, ?_, ?_, ?_, ?_, ?_, ?_⟩, ⟨?_, ?_⟩, ⟨?_, ?_⟩, ⟨?_, ?_, ?_⟩, ⟨?_, ?_, ?_⟩, ⟨?_, ?_,
    ?_, ?_, ?_⟩, ⟨?_, ?_, ?_, ?_⟩, ⟨?_, ?_, ?_, ?_⟩, ⟨?_, ?_, ?_, ?_⟩, ⟨?_, ?_, ?_, ?_, ?_⟩, ⟨?_, ?_, ?_, ?_, ?_⟩,
    ⟨?_, ?_, ?_, ?_, ?_, ?_⟩, ⟨?_, ?_, ?_, ?_, ?_, ?_⟩, ⟨?_, ?_, ?_, ?_, ?_, ?_⟩, ⟨?_, ?_, ?_, ?_, ?_, ?_⟩, ⟨?_, ?_,
    ?_, ?_, ?_, ?_⟩, ⟨?_, ?_, ?_, ?_, ?_, ?_⟩, ⟨?_, ?_, ?_, ?_, ?_, ?_⟩, ⟨?_, ?_, ?_, ?_, ?_, ?_⟩, ⟨?_, ?_, ?_, ?_,
    ?_, ?_⟩, ⟨?_, ?_, ?_, ?_, ?_, ?_⟩, ⟨?_, ?_, ?_, ?_, ?_, ?_⟩, ⟨?_, ?_, ?_, ?_, ?_, ?_⟩, ⟨?_, ?_, ?_, ?_, ?_, ?_⟩,
    ⟨?_, ?_, ?_, ?_, ?_, ?_⟩, ⟨?_, ?_, ?_, ?_, ?_, ?_⟩, ⟨?_, ?_, ?_, ?_, ?_, ?_⟩, ⟨?_, ?_, ?_, ?_, ?_, ?_, ?_⟩, ⟨?_,
    ?_, ?_, ?_, ?_, ?_, ?_⟩, ⟨?_, ?_, ?_, ?_, ?_, ?_, ?_⟩, ⟨?_, ?_, ?_, ?_, ?_, ?_, ?_⟩, ⟨?_, ?_, ?_, ?_, ?_, ?_, ?_⟩,
    ⟨?_, ?_, ?_, ?_, ?_, ?_, ?_⟩, ⟨?_, ?_, ?_, ?_, ?_, ?_, ?_⟩, ⟨?_, ?_, ?_, ?_, ?_, ?_, ?_⟩, ⟨?_, ?_, ?_, ?_, ?_, ?_,
    ?_⟩, ⟨?_, ?_, ?_, ?_, ?_, ?_, ?_⟩, ⟨?_, ?_, ?_, ?_, ?_, ?_, ?_⟩, ⟨?_, ?_, ?_, ?_, ?_, ?_, ?_⟩, ⟨?_, ?_, ?_, ?_,
    ?_, ?_, ?_⟩, ⟨?_, ?_, ?_, ?_, ?_, ?_, ?_⟩, ⟨?_, ?_, ?_, ?_, ?_, ?_, ?_, ?_⟩, ⟨?_, ?_, ?_, ?_, ?_, ?_, ?_, ?_⟩,
    ⟨?_, ?_, ?_, ?_, ?_, ?_, ?_, ?_⟩, ⟨?_, ?_, ?_, ?_, ?_, ?_, ?_, ?_⟩, ⟨?_, ?_, ?_, ?_, ?_, ?_, ?_, ?_⟩, ⟨?_, ?_, ?_,
    ?_, ?_, ?_, ?_, ?_⟩, ⟨?_, ?_, ?_, ?_, ?_, ?_, ?_, ?_⟩, ⟨?_, ?_, ?_, ?_, ?_, ?_, ?_, ?_⟩, ⟨?_, ?_, ?_, ?_, ?_, ?_,
    ?_, ?_⟩, ⟨?_, ?_, ?_, ?_, ?_, ?_, ?_, ?_⟩, ⟨?_, ?_, ?_, ?_, ?_, ?_, ?_, ?_⟩, ⟨?_, ?_, ?_, ?_, ?_, ?_, ?_, ?_⟩,
    ⟨?_, ?_, ?_, ?_, ?_, ?_, ?_, ?_⟩, ⟨?_, ?_, ?_, ?_, ?_, ?_, ?_, ?_⟩, ⟨?_, ?_, ?_, ?_, ?_, ?_, ?_, ?_⟩, ⟨?_, ?_, ?_,
    ?_, ?_, ?_, ?_, ?_⟩, ⟨?_, ?_, ?_, ?_, ?_, ?_, ?_, ?_⟩, ⟨?_, ?_, ?_, ?_, ?_, ?_, ?_, ?_⟩, ⟨?_, ?_, ?_, ?_, ?_, ?_,
    ?_, ?_⟩, ⟨?_, ?_, ?_, ?_, ?_, ?_, ?_, ?_⟩, ⟨?_, ?_, ?_, ?_, ?_, ?_, ?_, ?_⟩, ⟨?_, ?_, ?_, ?_, ?_, ?_, ?_, ?_⟩,
    ⟨?_, ?_, ?_, ?_, ?_, ?_, ?_, ?_⟩, ⟨?_, ?_⟩⟩ <;> decide +kernel

theorem witness_ReadsAnswered :
    (let s := freeLine managed; let src := stationZ;
      s.canAnswer src) ∧
    (let s := managed; let src := stationZ; let number : Byte := 95; let flag : Byte := 0; let n : Fin 96 := 95;
      s.canAnswer src ∧ (flag = 0 ∨ flag = 1) ∧ number.toNat = n.val) ∧
    (let s := freeLine managed; let src := stationZ; let number : Byte := 2; let flag : Byte := 1; let p := Port.zone;
      s.canAnswer src ∧ (flag = 0 ∨ flag = 1) ∧
      number.toNat = match p with | Port.a => 0 | Port.b => 1 | Port.zone => 2) ∧
    (let s := managed; let src := station;
      s.canAnswer src) ∧
    (let s := managed; let src := stationB;
      s.canAnswer src) ∧
    (let s := staged; let src := station; let first : Nat := 1021; let count : Nat := 3;
      s.canAnswer src ∧ 1 ≤ count ∧ count ≤ 3 ∧ first + count ≤ 1024) ∧
    (let s := staged; let src := station; let first : Nat := 0; let count : Nat := 1;
      s.canAnswer src ∧ 1 ≤ count ∧ count ≤ 3 ∧ first + count ≤ 1024) ∧
    (let s := managed; let src := station; let number : Byte := 3; let flag : Byte := 1; let c : Fin 4 := 3;
      s.canAnswer src ∧ (flag = 0 ∨ flag = 1) ∧ number.toNat = c.val) ∧
    (let s := managed; let src := stationB; let number : Byte := 3; let flag : Byte := 0; let b : Fin 4 := 3;
      s.canAnswer src ∧ (flag = 0 ∨ flag = 1) ∧ number.toNat = b.val) ∧
    (let s := managed; let src := station; let number : Byte := 0; let flag : Byte := 0;
      s.canAnswer src ∧ (flag = 0 ∨ flag = 1) ∧ number = 0) ∧
    (let s := managed; let src := station; let number : Byte := 2; let flag : Byte := 1; let p := Port.zone;
      s.canAnswer src ∧ (flag = 0 ∨ flag = 1) ∧
      number.toNat = match p with | Port.a => 0 | Port.b => 1 | Port.zone => 2) := by
  refine ⟨?_, ?_, ?_, ?_, ?_, ?_, ?_, ?_, ?_, ?_, ?_⟩ <;> decide +kernel

theorem witness_RecordsStored :
    (let s := managed; let src := stationZ; let index : Half := 1; let record : List Byte := [1, 4, 10];
      let i : Fin 2 := 1;
      s.canAnswer src ∧ record.length = 3 ∧ index.toNat = i.val) ∧
    (let s := manyLit managed; let src := station; let index : Half := 0;
      let record : List Byte := [0, 150, 0, 150, 0, 150, 0, 150, 7, 208]; let m : Fin 4 := 0;
      let u : Budget := { s.lbu with limits := upd s.lbu.limits m fun _ => decodeLimits record };
      s.canAnswer src ∧ record.length = 10 ∧ index.toNat = m.val ∧ m = s.lbu.mode.index ∧ u.walkable 0 ∧ s.noRise u) ∧
    (let s := flagged (manyLit (essential managed)); let src := station; let index : Half := 0;
      let record : List Byte := [0, 99, 0, 99, 0, 99, 0, 99, 0, 250]; let m : Fin 4 := 0;
      let u : Budget := { s.lbu with limits := upd s.lbu.limits m fun _ => decodeLimits record };
      s.canAnswer src ∧ record.length = 10 ∧ index.toNat = m.val ∧ m = s.lbu.mode.index ∧ u.walkable 0 ∧ s.noRise u) ∧
    (let s := manyLit managed; let src := station; let index : Half := 0;
      let record : List Byte := [3, 232, 3, 232, 3, 232, 3, 232, 0, 250]; let m : Fin 4 := 0;
      let u : Budget := { s.lbu with limits := upd s.lbu.limits m fun _ => decodeLimits record };
      s.canAnswer src ∧ record.length = 10 ∧ index.toNat = m.val ∧ m = s.lbu.mode.index ∧ u.walkable 0 ∧ s.noRise u) ∧
    (let s := manyLit managed; let src := station; let index : Half := 0;
      let record : List Byte := [0, 150, 0, 150, 0, 150, 0, 150, 7, 209]; let m : Fin 4 := 0;
      let u : Budget := { s.lbu with limits := upd s.lbu.limits m fun _ => decodeLimits record };
      let v : State := { s with lbu := u }; let w := v.decreased.overcommitted;
      s.canAnswer src ∧ record.length = 10 ∧ index.toNat = m.val ∧ m = s.lbu.mode.index ∧ u.walkable 0 ∧ ¬s.noRise u ∧
      w.shedFree) ∧
    (let s := manyLit managed; let src := station; let index : Half := 0;
      let record : List Byte := [3, 233, 3, 233, 3, 233, 3, 233, 0, 250]; let m : Fin 4 := 0;
      let u : Budget := { s.lbu with limits := upd s.lbu.limits m fun _ => decodeLimits record };
      let v : State := { s with lbu := u }; let w := v.decreased.overcommitted;
      s.canAnswer src ∧ record.length = 10 ∧ index.toNat = m.val ∧ m = s.lbu.mode.index ∧ u.walkable 0 ∧ ¬s.noRise u ∧
      w.shedFree) ∧
    (let s := managed; let src := station; let index : Half := 63;
      let record : List Byte := [0xF5, 0, 0, 0, 0, 0, 0, 0]; let i : Fin 64 := 63;
      let r : Route := ⟨true, .any, none, none, none, none, .pass, none⟩;
      s.canAnswer src ∧ record.length = 8 ∧ index.toNat = i.val ∧ decodeRoute record = some r) ∧
    (let s := managed; let src := stationB; let index : Half := 0; let record : List Byte := [15];
      let h : BitVec 4 := 15;
      s.canAnswer src ∧ record.length = 1 ∧ index = 0 ∧ decodeParam record = some h) ∧
    (let s := managed; let src := station; let index : Half := 3;
      let record : List Byte := [0, 0, 0, 0, 0, 0, 0, 0, 0, 0]; let m : Fin 4 := 3;
      s.canAnswer src ∧ record.length = 10 ∧ index.toNat = m.val ∧ m ≠ s.lbu.mode.index) ∧
    (let s := flagged (victim managed); let src := station; let index : Half := 0;
      let record : List Byte := [3, 233, 3, 232, 3, 232, 3, 232, 7, 208]; let m : Fin 4 := 0;
      let u : Budget := { s.lbu with limits := upd s.lbu.limits m fun _ => decodeLimits record };
      let v : State := { s with lbu := u }; let w := v.decreased.overcommitted;
      s.canAnswer src ∧ record.length = 10 ∧ index.toNat = m.val ∧ m = s.lbu.mode.index ∧ u.walkable 0 ∧ ¬s.noRise u ∧
      w.shedFree) ∧
    (let s := managed; let src := station; let index : Half := 63; let record : List Byte := [1, 4, 40, 9];
      let k : Fin 64 := 63; let r : PointCfg := ⟨true, ⟨4, 40⟩, 9⟩;
      s.canAnswer src ∧ record.length = 4 ∧ index.toNat = k.val ∧ decodePoint record = some r ∧
      pointInUse s k = false) ∧
    (let s := armedManaged; let src := station; let index : Half := 6; let record : List Byte := [1, 4, 40, 9];
      let k : Fin 64 := 6; let r : PointCfg := ⟨true, ⟨4, 40⟩, 9⟩;
      s.canAnswer src ∧ record.length = 4 ∧ index.toNat = k.val ∧ decodePoint record = some r ∧
      pointInUse s k = true) ∧
    (let s := managed; let src := station; let index : Half := 47; let record : List Byte := [0x07, 63, 0, 5, 0, 99];
      let k : Fin 48 := 47; let r : Condition := ⟨true, 63, .ge, 5, 99⟩;
      s.canAnswer src ∧ record.length = 6 ∧ index.toNat = k.val ∧ decodeCondition record = some r ∧
      inUse s k = false) ∧
    (let s := armedManaged; let src := station; let index : Half := 3;
      let record : List Byte := [0x07, 63, 0, 5, 0, 99]; let k : Fin 48 := 3;
      let r : Condition := ⟨true, 63, .ge, 5, 99⟩;
      s.canAnswer src ∧ record.length = 6 ∧ index.toNat = k.val ∧ decodeCondition record = some r ∧
      inUse s k = true) := by
  refine ⟨⟨?_, ?_, ?_⟩, ⟨?_, ?_, ?_, ?_, ?_, ?_⟩, ⟨?_, ?_, ?_, ?_, ?_, ?_⟩, ⟨?_, ?_, ?_, ?_, ?_, ?_⟩, ⟨?_, ?_, ?_, ?_,
    ?_, ?_, ?_⟩, ⟨?_, ?_, ?_, ?_, ?_, ?_, ?_⟩, ⟨?_, ?_, ?_, ?_⟩, ⟨?_, ?_, ?_, ?_⟩, ⟨?_, ?_, ?_, ?_⟩, ⟨?_, ?_, ?_, ?_,
    ?_, ?_, ?_⟩, ⟨?_, ?_, ?_, ?_, ?_⟩, ⟨?_, ?_, ?_, ?_, ?_⟩, ⟨?_, ?_, ?_, ?_, ?_⟩, ⟨?_, ?_, ?_, ?_, ?_⟩⟩ <;> decide
    +kernel

theorem witness_LoadsAndChannelsStored :
    (let s := awaited 8 (shedding managed); let src := stationZ; let index : Half := 8;
      let record := encodeLoad offLoad; let n : Fin 96 := 8; let r := offLoad; let l := s.lbu.loads[n.val];
      let q : LoadCfg := { r with
        full := min r.full 3000
        inrush := if r.type = .dimmed then r.inrush else min r.inrush 6000
        minLevel := if r.type = .dimmed then max 1 (min r.minLevel 1000) else r.minLevel };
      s.canAnswer src ∧ record.length = 10 ∧ index.toNat = n.val ∧ decodeLoad record = some r ∧
      (l.bound = none ∨ r.valid = true ∧ r.type = LoadType.motor) ∧ l.state = LoadState.off ∧ l.due = false ∧
      (¬(q.device = 0 ∨ 120 < BitVec.toNat q.device ∨ q.type ≠ LoadType.dimmed ∧ q.inrush < q.full ∨ q.valid = true ∧
        ∃ m, m ≠ n ∧ s.lbu.loads[m.val].cfg.valid = true ∧ s.lbu.loads[m.val].cfg.device = q.device ∧
        s.lbu.loads[m.val].cfg.output = q.output)) ∧ s.markOpen n) ∧
    (let s := lit 8 1000 100 managed; let src := station; let index : Half := 8; let record := encodeLoad offLoad;
      let n : Fin 96 := 8; let r := offLoad; let l := s.lbu.loads[n.val];
      s.canAnswer src ∧ record.length = 10 ∧ index.toNat = n.val ∧ decodeLoad record = some r ∧
      (l.state ≠ LoadState.off ∨ l.due = true)) ∧
    (let s := managed; let src := station; let index : Half := 5; let record := encodeLoad offLoad;
      let n : Fin 96 := 5; let r := offLoad; let l := s.lbu.loads[n.val];
      s.canAnswer src ∧ record.length = 10 ∧ index.toNat = n.val ∧ decodeLoad record = some r ∧
      l.bound.isSome = true ∧ l.state = LoadState.off ∧ l.due = false ∧ (r.valid = false ∨ r.type ≠ LoadType.motor)) ∧
    (let s := managed; let src := station; let index : Half := 95; let record := encodeLoad offLoad;
      let n : Fin 96 := 95; let r := offLoad; let l := s.lbu.loads[n.val];
      let q : LoadCfg := { r with
        full := min r.full 3000
        inrush := if r.type = .dimmed then r.inrush else min r.inrush 6000
        minLevel := if r.type = .dimmed then max 1 (min r.minLevel 1000) else r.minLevel };
      s.canAnswer src ∧ record.length = 10 ∧ index.toNat = n.val ∧ decodeLoad record = some r ∧
      (l.bound = none ∨ r.valid = true ∧ r.type = LoadType.motor) ∧ l.state = LoadState.off ∧ l.due = false ∧
      (q.device = 0 ∨ 120 < BitVec.toNat q.device ∨ q.type ≠ LoadType.dimmed ∧ q.inrush < q.full ∨ q.valid = true ∧ ∃
        m, m ≠ n ∧ s.lbu.loads[m.val].cfg.valid = true ∧ s.lbu.loads[m.val].cfg.device = q.device ∧
        s.lbu.loads[m.val].cfg.output = q.output)) ∧
    (let s := managed; let src := station; let index : Half := 5;
      let record := encodeLoad { (loadOf .motor 31 1).cfg with device := 121 }; let n : Fin 96 := 5;
      let r : LoadCfg := { (loadOf .motor 31 1).cfg with device := 121 }; let l := s.lbu.loads[n.val];
      let q : LoadCfg := { r with
        full := min r.full 3000
        inrush := if r.type = .dimmed then r.inrush else min r.inrush 6000
        minLevel := if r.type = .dimmed then max 1 (min r.minLevel 1000) else r.minLevel };
      s.canAnswer src ∧ record.length = 10 ∧ index.toNat = n.val ∧ decodeLoad record = some r ∧
      (l.bound = none ∨ r.valid = true ∧ r.type = LoadType.motor) ∧ l.state = LoadState.off ∧ l.due = false ∧
      (q.device = 0 ∨ 120 < BitVec.toNat q.device ∨ q.type ≠ LoadType.dimmed ∧ q.inrush < q.full ∨ q.valid = true ∧ ∃
        m, m ≠ n ∧ s.lbu.loads[m.val].cfg.valid = true ∧ s.lbu.loads[m.val].cfg.device = q.device ∧
        s.lbu.loads[m.val].cfg.output = q.output)) ∧
    (let s := managed; let src := station; let index : Half := 8; let record := encodeLoad bigLoad;
      let n : Fin 96 := 8; let r := bigLoad; let l := s.lbu.loads[n.val];
      let q : LoadCfg := { r with
        full := min r.full 3000
        inrush := if r.type = .dimmed then r.inrush else min r.inrush 6000
        minLevel := if r.type = .dimmed then max 1 (min r.minLevel 1000) else r.minLevel };
      s.canAnswer src ∧ record.length = 10 ∧ index.toNat = n.val ∧ decodeLoad record = some r ∧
      (l.bound = none ∨ r.valid = true ∧ r.type = LoadType.motor) ∧ l.state = LoadState.off ∧ l.due = false ∧
      (¬(q.device = 0 ∨ 120 < BitVec.toNat q.device ∨ q.type ≠ LoadType.dimmed ∧ q.inrush < q.full ∨ q.valid = true ∧
        ∃ m, m ≠ n ∧ s.lbu.loads[m.val].cfg.valid = true ∧ s.lbu.loads[m.val].cfg.device = q.device ∧
        s.lbu.loads[m.val].cfg.output = q.output)) ∧ s.markOpen n) ∧
    (let s := managed; let src := station; let index : Half := 5;
      let record := encodeLoad { (loadOf .motor 61 1).cfg with full := 3001, inrush := 6001 }; let n : Fin 96 := 5;
      let r : LoadCfg := { (loadOf .motor 61 1).cfg with full := 3001, inrush := 6001 }; let l := s.lbu.loads[n.val];
      let q : LoadCfg := { r with
        full := min r.full 3000
        inrush := if r.type = .dimmed then r.inrush else min r.inrush 6000
        minLevel := if r.type = .dimmed then max 1 (min r.minLevel 1000) else r.minLevel };
      s.canAnswer src ∧ record.length = 10 ∧ index.toNat = n.val ∧ decodeLoad record = some r ∧
      (l.bound = none ∨ r.valid = true ∧ r.type = LoadType.motor) ∧ l.state = LoadState.off ∧ l.due = false ∧
      (¬(q.device = 0 ∨ 120 < BitVec.toNat q.device ∨ q.type ≠ LoadType.dimmed ∧ q.inrush < q.full ∨ q.valid = true ∧
        ∃ m, m ≠ n ∧ s.lbu.loads[m.val].cfg.valid = true ∧ s.lbu.loads[m.val].cfg.device = q.device ∧
        s.lbu.loads[m.val].cfg.output = q.output)) ∧ s.markOpen n) ∧
    (let s := armedManaged; let src := station; let ch : Byte := 0; let record : List Byte := [5, 20, 5];
      let c : Fin 4 := 0; let r : ChanPart0 := ⟨true, 2, 20, 5⟩;
      s.canAnswer src ∧ ch.toNat = c.val ∧ (s.chan c).state.active = true ∧ record.length = 3 ∧
      decodePart0 record = some r) ∧
    (let s := armedManaged; let src := station; let ch : Byte := 0;
      let record : List Byte := [1, 4, 10, 0, 0, 0, 0, 0, 0]; let c : Fin 4 := 0; let r : List Origin := [⟨4, 10⟩];
      s.canAnswer src ∧ ch.toNat = c.val ∧ (s.chan c).state.active = true ∧ record.length = 9 ∧
      decodePart1 record = some r) ∧
    (let s := armedManaged; let src := station; let ch : Byte := 0; let record := List.replicate 12 0;
      let c : Fin 4 := 0;
      s.canAnswer src ∧ ch.toNat = c.val ∧ (s.chan c).state.active = true ∧ record.length = 12) ∧
    (let s := armedManaged; let src := station; let ch : Byte := 0;
      let record : List Byte := 1 :: 3 :: List.replicate 12 0; let c : Fin 4 := 0;
      let r : List (Fin 48) × List (Fin 48) := ⟨[3], []⟩;
      s.canAnswer src ∧ ch.toNat = c.val ∧ (s.chan c).state.active = true ∧ record.length = 14 ∧
      decodePart3 record = some r) ∧
    (let s := managed; let src := station; let ch : Byte := 3; let record : List Byte := [1, 121, 10];
      let c : Fin 4 := 3; let r : ChanPart0 := ⟨true, 0, 121, 10⟩;
      s.canAnswer src ∧ ch.toNat = c.val ∧ (s.chan c).state.active = false ∧ record.length = 3 ∧
      decodePart0 record = some r ∧ r.valid = true ∧
      (r.controller = 0 ∨ 120 < BitVec.toNat r.controller ∨ r.exclusion.getLsbD c.val = true ∨
        s.lbu.loads[↑r.motorLoad].cfg.valid = false ∨ s.lbu.loads[↑r.motorLoad].cfg.type ≠ LoadType.motor ∨ (∃ d, d ≠
        c ∧ s.lbu.loads[↑r.motorLoad].bound = some d) ∨ ∃ d, d ≠ c ∧ (s.chan d).cfg.valid = true ∧ (s.chan
        d).cfg.controller = r.controller)) ∧
    (let s := twoMotors managed; let src := station; let ch : Byte := 3; let record : List Byte := [1, 120, 10];
      let c : Fin 4 := 3; let r : ChanPart0 := ⟨true, 0, 120, 10⟩;
      s.canAnswer src ∧ ch.toNat = c.val ∧ (s.chan c).state.active = false ∧ record.length = 3 ∧
      decodePart0 record = some r ∧ r.valid = true ∧
      (¬(r.controller = 0 ∨ 120 < BitVec.toNat r.controller ∨ r.exclusion.getLsbD c.val = true ∨
        s.lbu.loads[↑r.motorLoad].cfg.valid = false ∨ s.lbu.loads[↑r.motorLoad].cfg.type ≠ LoadType.motor ∨ (∃ d, d ≠
        c ∧ s.lbu.loads[↑r.motorLoad].bound = some d) ∨ ∃ d, d ≠ c ∧ (s.chan d).cfg.valid = true ∧ (s.chan
        d).cfg.controller = r.controller)) ∧ (s.chan c).state = ChanState.off) ∧
    (let s := twoMotors (inFault managed); let src := station; let ch : Byte := 0;
      let record : List Byte := [5, 1, 10]; let c : Fin 4 := 0; let r : ChanPart0 := ⟨true, 2, 1, 10⟩;
      s.canAnswer src ∧ ch.toNat = c.val ∧ (s.chan c).state.active = false ∧ record.length = 3 ∧
      decodePart0 record = some r ∧ r.valid = true ∧
      (¬(r.controller = 0 ∨ 120 < BitVec.toNat r.controller ∨ r.exclusion.getLsbD c.val = true ∨
        s.lbu.loads[↑r.motorLoad].cfg.valid = false ∨ s.lbu.loads[↑r.motorLoad].cfg.type ≠ LoadType.motor ∨ (∃ d, d ≠
        c ∧ s.lbu.loads[↑r.motorLoad].bound = some d) ∨ ∃ d, d ≠ c ∧ (s.chan d).cfg.valid = true ∧ (s.chan
        d).cfg.controller = r.controller)) ∧
      ((s.chan c).state = ChanState.idle ∨ (s.chan c).state = ChanState.fault)) ∧
    (let s := managed; let src := station; let ch : Byte := 0; let record : List Byte := [0, 0, 95];
      let c : Fin 4 := 0; let r : ChanPart0 := ⟨false, 0, 0, 95⟩;
      s.canAnswer src ∧ ch.toNat = c.val ∧ (s.chan c).state.active = false ∧ record.length = 3 ∧
      decodePart0 record = some r ∧ r.valid = false) ∧
    (let s := managed; let src := station; let ch : Byte := 3; let record : List Byte := [1, 4, 10, 0, 0, 0, 0, 0, 0];
      let c : Fin 4 := 3; let r : List Origin := [⟨4, 10⟩];
      s.canAnswer src ∧ ch.toNat = c.val ∧ (s.chan c).state.active = false ∧ record.length = 9 ∧
      decodePart1 record = some r) ∧
    (let s := managed; let src := station; let ch : Byte := 3; let record := List.replicate 12 0; let c : Fin 4 := 3;
      s.canAnswer src ∧ ch.toNat = c.val ∧ (s.chan c).state.active = false ∧ record.length = 12) ∧
    (let s := managed; let src := station; let ch : Byte := 3;
      let record : List Byte := 1 :: 47 :: List.replicate 12 0; let c : Fin 4 := 3;
      let r : List (Fin 48) × List (Fin 48) := ⟨[47], []⟩;
      s.canAnswer src ∧ ch.toNat = c.val ∧ (s.chan c).state.active = false ∧ record.length = 14 ∧
      decodePart3 record = some r) := by
  refine ⟨⟨?_, ?_, ?_, ?_, ?_, ?_, ?_, ?_, ?_⟩, ⟨?_, ?_, ?_, ?_, ?_⟩, ⟨?_, ?_, ?_, ?_, ?_, ?_, ?_, ?_⟩, ⟨?_, ?_, ?_,
    ?_, ?_, ?_, ?_, ?_⟩, ⟨?_, ?_, ?_, ?_, ?_, ?_, ?_, ?_⟩, ⟨?_, ?_, ?_, ?_, ?_, ?_, ?_, ?_, ?_⟩, ⟨?_, ?_, ?_, ?_, ?_,
    ?_, ?_, ?_, ?_⟩, ⟨?_, ?_, ?_, ?_, ?_⟩, ⟨?_, ?_, ?_, ?_, ?_⟩, ⟨?_, ?_, ?_, ?_⟩, ⟨?_, ?_, ?_, ?_, ?_⟩, ⟨?_, ?_, ?_,
    ?_, ?_, ?_, ?_⟩, ⟨?_, ?_, ?_, ?_, ?_, ?_, ?_, ?_⟩, ⟨?_, ?_, ?_, ?_, ?_, ?_, ?_, ?_⟩, ⟨?_, ?_, ?_, ?_, ?_, ?_⟩,
    ⟨?_, ?_, ?_, ?_, ?_⟩, ⟨?_, ?_, ?_, ?_⟩, ⟨?_, ?_, ?_, ?_, ?_⟩⟩ <;> decide +kernel

theorem witness_ActingRequests :
    (let s := inFault managed; let src := stationZ; let ch : Byte := 0; let c : Fin 4 := 0;
      s.canAnswer src ∧ ch.toNat = c.val ∧ (s.chan c).state = ChanState.fault ∧
      (s.ds.loopOpen = false ∧ s.ds.trip[c.val] = false ∧ s.lbu.trip[↑s.lbu.loads[↑(s.chan
        c).cfg.motorLoad].cfg.branch] = false ∧ s.zp.segment = Segment.normal)) ∧
    (let s := limits 3 150 2000 (manyLit managed); let src := station; let m : Fin 4 := 3;
      let u : Budget := { s.lbu with selector := .manual, mode := .ofIndex m };
      s.canAnswer src ∧ m ≠ s.lbu.mode.index ∧ u.walkable 0 ∧ s.noRise u) ∧
    (let s := limits 3 1100 250 (manyLit managed); let src := station; let m : Fin 4 := 3;
      let u : Budget := { s.lbu with selector := .manual, mode := .ofIndex m }; let v : State := { s with lbu := u };
      let w := v.decreased.overcommitted;
      s.canAnswer src ∧ m ≠ s.lbu.mode.index ∧ u.walkable 0 ∧ ¬s.noRise u ∧ w.shedFree) ∧
    (let s := limits 2 1000 250 (manyLit (essential managedLow)); let src := station; let p : Byte := 6;
      let k : Fin 64 := 6; let x := (s.pm.points[k.val]).state; let v0 : Half := 2; let n : Nat := 0;
      let m : Fin 4 := 2; let u : Budget := { s.lbu with selector := .fromPoint k, mode := .ofIndex m };
      s.canAnswer src ∧ p.toNat = k.val ∧ x = PointState.valid v0 n ∧ v0.toNat = m.val ∧ m ≠ s.lbu.mode.index ∧
      u.walkable 0 ∧ s.noRise u) ∧
    (let s := managedUnassigned; let src := station; let z : Byte := 1;
      s.canAnswer src ∧ 1 ≤ z ∧ z ≤ 60 ∧ s.mr.ownZone = 0) ∧
    (let s := managed; let src := station; let z : Byte := 4;
      s.canAnswer src ∧ 1 ≤ z ∧ z ≤ 60 ∧ s.mr.ownZone = z) ∧
    (let s := managed; let src := stationB; let z : Byte := 60;
      s.canAnswer src ∧ 1 ≤ z ∧ z ≤ 60 ∧ s.mr.ownZone ≠ 0 ∧ s.mr.ownZone ≠ z) ∧
    (let s := owing 7 managedUnassigned; let src := station; let z : Byte := 60;
      s.canAnswer src ∧ 1 ≤ z ∧ z ≤ 60 ∧ s.mr.ownZone = 0) ∧
    (let s := managed; let src := station; let m : Fin 4 := 0;
      s.canAnswer src ∧ m = s.lbu.mode.index) ∧
    (let s := limits 3 1000 2000 managed; let src := station; let m : Fin 4 := 3;
      let u : Budget := { s.lbu with selector := .manual, mode := .ofIndex m };
      s.canAnswer src ∧ m ≠ s.lbu.mode.index ∧ u.walkable 0 ∧ s.noRise u) ∧
    (let s := limits 3 99 98 (essential managed); let src := station; let m : Fin 4 := 3;
      let u : Budget := { s.lbu with selector := .manual, mode := .ofIndex m };
      s.canAnswer src ∧ m ≠ s.lbu.mode.index ∧ u.walkable 0 ∧ s.noRise u) ∧
    (let s := flagged (ample 3 (manyShed managed)); let src := station; let m : Fin 4 := 3;
      let u : Budget := { s.lbu with selector := .manual, mode := .ofIndex m }; let v : State := { s with lbu := u };
      let w := v.decreased.overcommitted;
      s.canAnswer src ∧ m ≠ s.lbu.mode.index ∧ u.walkable 0 ∧ ¬s.noRise u ∧ w.shedFree) ∧
    (let s := limits 3 99 2001 (victim managed); let src := stationB; let m : Fin 4 := 3;
      let u : Budget := { s.lbu with selector := .manual, mode := .ofIndex m }; let v : State := { s with lbu := u };
      let w := v.decreased.overcommitted;
      s.canAnswer src ∧ m ≠ s.lbu.mode.index ∧ u.walkable 0 ∧ ¬s.noRise u ∧ w.shedFree) ∧
    (let s := managed; let src := station; let p : Byte := 63; let k : Fin 64 := 63;
      let x := (s.pm.points[k.val]).state;
      s.canAnswer src ∧ p.toNat = k.val ∧ x = PointState.unknown) ∧
    (let s := managed; let src := station; let p : Byte := 6; let k : Fin 64 := 6;
      let x := (s.pm.points[k.val]).state; let v : Half := 9; let n : Nat := 0;
      s.canAnswer src ∧ p.toNat = k.val ∧ x = PointState.valid v n ∧ 4 ≤ v.toNat) ∧
    (let s := managedZero; let src := station; let p : Byte := 6; let k : Fin 64 := 6;
      let x := (s.pm.points[k.val]).state; let v : Half := 0; let n : Nat := 0; let m : Fin 4 := 0;
      s.canAnswer src ∧ p.toNat = k.val ∧ x = PointState.valid v n ∧ v.toNat = m.val ∧ m = s.lbu.mode.index) ∧
    (let s := limits 2 1000 2000 managedLow; let src := station; let p : Byte := 6; let k : Fin 64 := 6;
      let x := (s.pm.points[k.val]).state; let v0 : Half := 2; let n : Nat := 0; let m : Fin 4 := 2;
      let u : Budget := { s.lbu with selector := .fromPoint k, mode := .ofIndex m };
      s.canAnswer src ∧ p.toNat = k.val ∧ x = PointState.valid v0 n ∧ v0.toNat = m.val ∧ m ≠ s.lbu.mode.index ∧
      u.walkable 0 ∧ s.noRise u) ∧
    (let s := limits 2 99 98 (essential managedLow); let src := station; let p : Byte := 6; let k : Fin 64 := 6;
      let x := (s.pm.points[k.val]).state; let v0 : Half := 2; let n : Nat := 0; let m : Fin 4 := 2;
      let u : Budget := { s.lbu with selector := .fromPoint k, mode := .ofIndex m };
      s.canAnswer src ∧ p.toNat = k.val ∧ x = PointState.valid v0 n ∧ v0.toNat = m.val ∧ m ≠ s.lbu.mode.index ∧
      u.walkable 0 ∧ s.noRise u) ∧
    (let s := ample 2 (manyShed managedLow); let src := station; let p : Byte := 6; let k : Fin 64 := 6;
      let x := (s.pm.points[k.val]).state; let v0 : Half := 2; let n : Nat := 0; let m : Fin 4 := 2;
      let u : Budget := { s.lbu with selector := .fromPoint k, mode := .ofIndex m };
      let v : State := { s with lbu := u }; let w := v.decreased.overcommitted;
      s.canAnswer src ∧ p.toNat = k.val ∧ x = PointState.valid v0 n ∧ v0.toNat = m.val ∧ m ≠ s.lbu.mode.index ∧
      u.walkable 0 ∧ ¬s.noRise u ∧ w.shedFree) ∧
    (let s := limits 2 99 2001 (victim (essential managedLow)); let src := station; let p : Byte := 6;
      let k : Fin 64 := 6; let x := (s.pm.points[k.val]).state; let v0 : Half := 2; let n : Nat := 0;
      let m : Fin 4 := 2; let u : Budget := { s.lbu with selector := .fromPoint k, mode := .ofIndex m };
      let v : State := { s with lbu := u }; let w := v.decreased.overcommitted;
      s.canAnswer src ∧ p.toNat = k.val ∧ x = PointState.valid v0 n ∧ v0.toNat = m.val ∧ m ≠ s.lbu.mode.index ∧
      u.walkable 0 ∧ ¬s.noRise u ∧ w.shedFree) ∧
    (let s := inFault (driveTripped managed); let src := station; let ch : Byte := 0; let c : Fin 4 := 0;
      s.canAnswer src ∧ ch.toNat = c.val ∧ (s.chan c).state = ChanState.fault ∧
      (¬(s.ds.loopOpen = false ∧ s.ds.trip[c.val] = false ∧ s.lbu.trip[↑s.lbu.loads[↑(s.chan
        c).cfg.motorLoad].cfg.branch] = false ∧ s.zp.segment = Segment.normal))) ∧
    (let s := managed; let src := station; let ch : Byte := 3; let c : Fin 4 := 3;
      s.canAnswer src ∧ ch.toNat = c.val ∧ (s.chan c).state ≠ ChanState.fault) := by
  refine ⟨⟨?_, ?_, ?_, ?_⟩, ⟨?_, ?_, ?_, ?_⟩, ⟨?_, ?_, ?_, ?_, ?_⟩, ⟨?_, ?_, ?_, ?_, ?_, ?_, ?_⟩, ⟨?_, ?_, ?_, ?_⟩,
    ⟨?_, ?_, ?_, ?_⟩, ⟨?_, ?_, ?_, ?_, ?_⟩, ⟨?_, ?_, ?_, ?_⟩, ⟨?_, ?_⟩, ⟨?_, ?_, ?_, ?_⟩, ⟨?_, ?_, ?_, ?_⟩, ⟨?_, ?_,
    ?_, ?_, ?_⟩, ⟨?_, ?_, ?_, ?_, ?_⟩, ⟨?_, ?_, ?_⟩, ⟨?_, ?_, ?_, ?_⟩, ⟨?_, ?_, ?_, ?_, ?_⟩, ⟨?_, ?_, ?_, ?_, ?_, ?_,
    ?_⟩, ⟨?_, ?_, ?_, ?_, ?_, ?_, ?_⟩, ⟨?_, ?_, ?_, ?_, ?_, ?_, ?_, ?_⟩, ⟨?_, ?_, ?_, ?_, ?_, ?_, ?_, ?_⟩, ⟨?_, ?_,
    ?_, ?_⟩, ⟨?_, ?_, ?_⟩⟩ <;> decide +kernel

theorem witness_ResetAndRestart :
    (let s := deafManaged; let src := stationZ;
      s.canAnswer src ∧ s.segmentHolds ∧ (∀ c : Fin 4, s.drives c = false)) ∧
    (let s := victim (motion .running .none .run managed); let src := stationZ; let u := s.segmentEmptied;
      let base : State := { u with zp := { u.zp with
        segment := .normal, recovery := none, stuck := if s.zp.lineDominant then some (s.now + 100) else none } };
      let v := (base.faultingAll (fun c => (s.chan c).state.active) .segment).levelsDue;
      s.canAnswer src ∧ s.segmentHolds ∧ (∃ c, s.drives c = true) ∧ v.shedFree) ∧
    (let s := victim managed; let src := station;
      s.canAnswer src ∧ s.segmentHolds ∧ (∀ c : Fin 4, s.drives c = false)) ∧
    (let s := armedManaged; let src := station;
      s.canAnswer src ∧ s.segmentHolds ∧ (∀ c : Fin 4, s.drives c = false)) ∧
    (let s := victim (motion .running .none .run managed); let src := station; let u := s.segmentEmptied;
      let base : State := { u with zp := { u.zp with
        segment := .normal, recovery := none, stuck := if s.zp.lineDominant then some (s.now + 100) else none } };
      let v := (base.faultingAll (fun c => (s.chan c).state.active) .segment).levelsDue;
      s.canAnswer src ∧ s.segmentHolds ∧ (∃ c, s.drives c = true) ∧ v.shedFree) ∧
    (let s := manyShed (second .starting .shedding (motion .running .none .run managed)); let src := stationB;
      let u := s.segmentEmptied;
      let base : State := { u with zp := { u.zp with
        segment := .normal, recovery := none, stuck := if s.zp.lineDominant then some (s.now + 100) else none } };
      let v := (base.faultingAll (fun c => (s.chan c).state.active) .segment).levelsDue;
      s.canAnswer src ∧ s.segmentHolds ∧ (∃ c, s.drives c = true) ∧ v.shedFree) ∧
    (let s := rival (motion .running .none .run managed); let src := station;
      s.canAnswer src ∧ s.segmentHolds) ∧
    (let s := managed; let src := station;
      s.takesRequest src ∧ src.port ≠ Port.zone) ∧
    (let s := replyPending; let r : PendingReply := ⟨10, 7, ⟨60, 1⟩, .a⟩;
      s.mr.pendingReply = some r ∧ 1 ≤ s.pool.freeCount ∧ s.takesReply r.port = true ∧ s.replyOpen r.port) ∧
    (let s : State := { restLinks replyPending with mr := { replyPending.mr with pendingReply := some ⟨10, 7, ⟨60, 1⟩,
        .b⟩ } }; let r : PendingReply := ⟨10, 7, ⟨60, 1⟩, .b⟩;
      s.mr.pendingReply = some r ∧ 1 ≤ s.pool.freeCount ∧ s.takesReply r.port = true ∧ s.replyOpen r.port) ∧
    (let s : State := { freeLine replyPending with mr := { replyPending.mr with pendingReply := some ⟨10, 7, ⟨60, 1⟩,
        .zone⟩ } }; let r : PendingReply := ⟨10, 7, ⟨60, 1⟩, .zone⟩;
      s.mr.pendingReply = some r ∧ 1 ≤ s.pool.freeCount ∧ s.takesReply r.port = true ∧ s.replyOpen r.port) ∧
    (let s := empty replyPending; let r : PendingReply := ⟨10, 7, ⟨60, 1⟩, .a⟩;
      s.mr.pendingReply = some r ∧ (s.pool.freeCount = 0 ∨ s.takesReply r.port = false)) ∧
    (let s := cutOff replyPending; let r : PendingReply := ⟨10, 7, ⟨60, 1⟩, .a⟩;
      s.mr.pendingReply = some r ∧ (s.pool.freeCount = 0 ∨ s.takesReply r.port = false)) ∧
    (let s := plant;
      s.mr.pendingReply = none) := by
  refine ⟨⟨?_, ?_, ?_⟩, ⟨?_, ?_, ?_, ?_⟩, ⟨?_, ?_, ?_⟩, ⟨?_, ?_, ?_⟩, ⟨?_, ?_, ?_, ?_⟩, ⟨?_, ?_, ?_, ?_⟩, ⟨?_, ?_⟩,
    ⟨?_, ?_⟩, ⟨?_, ?_, ?_, ?_⟩, ⟨?_, ?_, ?_, ?_⟩, ⟨?_, ?_, ?_, ?_⟩, ⟨?_, ?_⟩, ⟨?_, ?_⟩, ?_⟩ <;> decide +kernel

end Sys2Proof.Tests
end

