-- ==== Sys2Proof/Proofs/PoolAccount.lean ====
section
/-! The account of one pool buffer (R36, R37): what a step can do to it, apart from the state it stands in. -/

namespace Sys2Proof.Machine

/-- A function with another value at one argument. -/
def put {α β : Type} [DecidableEq α] (f : α → β) (a : α) (y : β) : α → β := fun x => if x = a then y else f x

section
variable {α β : Type} [DecidableEq α] (f : α → β) (a : α)

theorem put_apply (y : β) (x : α) : put f a y x = if x = a then y else f x := rfl

@[simp] theorem put_self (y : β) : put f a y a = y := if_pos rfl

@[simp] theorem put_of_ne {x : α} (h : x ≠ a) (y : β) : put f a y x = f x := if_neg h

@[simp] theorem put_eq_self : put f a (f a) = f := by
  funext x
  by_cases h : x = a
  · rw [h, put_self]
  · exact put_of_ne f a h _

@[simp] theorem put_idem (y z : β) : put (put f a y) a z = put f a z := by
  funext x
  by_cases h : x = a
  · rw [h, put_self, put_self]
  · rw [put_of_ne _ _ h, put_of_ne _ _ h, put_of_ne _ _ h]

end

/-- What a port has to do with a buffer: it receives into it, places of its queue hold it, it sends from it. -/
structure PortUse where
  receives : Bool
  places : Nat
  sends : Bool

theorem PortUse.with_receives {u : PortUse} {c : Bool} (h : c = u.receives) : { u with receives := c } = u := by
  subst h; rfl

/-- A buffer as the law of the pool sees it: its count, whether it is free, how often FE's hold list names it, and
what each port has to do with it. -/
structure Account where
  refs : Nat
  free : Bool
  held : Nat
  use : Port → PortUse

/-- What an event in progress holds of a buffer beyond the holders that the state shows: references to be released
or passed on, and whether the buffer is taken and has no place yet. -/
structure Custody where
  refs : Nat
  unplaced : Bool

/-- No event holds the buffer. -/
def Custody.nobody : Custody := ⟨0, false⟩

/-- A buffer just granted, without a reference (R38). -/
def Custody.fresh : Custody := ⟨0, true⟩

/-- A frame with one reference and no place: between its reception and FE, or in classification (R21, R40). -/
def Custody.frame : Custody := ⟨1, true⟩

namespace Account

/-- Holders before classification. -/
def inbound (v : Account) : Nat :=
  (if (v.use .a).receives then 1 else 0) + (if (v.use .b).receives then 1 else 0) +
    (if (v.use .zone).receives then 1 else 0) + v.held

/-- Queue places. -/
def outbound (v : Account) : Nat := (v.use .a).places + (v.use .b).places + (v.use .zone).places

/-- The law of the pool for one buffer, of which an event in progress holds `k`. -/
structure Balanced (k : Custody) (v : Account) : Prop where
  refs : v.refs = v.inbound + v.outbound + k.refs
  free : v.free = true ↔ v.refs = 0 ∧ k.unplaced = false
  alone : v.inbound = 0 ∨ (v.inbound = 1 ∧ v.outbound = 0 ∧ k.refs = 0 ∧ k.unplaced = false)
  apart : k.unplaced = true → v.outbound = 0
  once : ∀ p, (v.use p).places ≤ 1
  sends : ∀ p, (v.use p).sends = true → (v.use p).places = 1

/-- Change what one port has to do with the buffer. -/
def setUse (v : Account) (p : Port) (u : PortUse) : Account := { v with use := put v.use p u }

@[simp] theorem setUse_refs (v : Account) (p : Port) (u : PortUse) : (v.setUse p u).refs = v.refs := rfl
@[simp] theorem setUse_free (v : Account) (p : Port) (u : PortUse) : (v.setUse p u).free = v.free := rfl

theorem setUse_use (v : Account) (p q : Port) (u : PortUse) :
    (v.setUse p u).use q = if q = p then u else v.use q := by
  simp [setUse, put_apply]

theorem setUse_of_eq {v : Account} {p : Port} {u : PortUse} (h : u = v.use p) : v.setUse p u = v := by
  simp [setUse, h]

theorem setUse_inbound (v : Account) (p : Port) (u : PortUse) :
    (v.setUse p u).inbound + (if (v.use p).receives then 1 else 0) =
      v.inbound + (if u.receives then 1 else 0) := by
  cases p <;> simp [inbound, setUse] <;> omega

theorem setUse_outbound (v : Account) (p : Port) (u : PortUse) :
    (v.setUse p u).outbound + (v.use p).places = v.outbound + u.places := by
  cases p <;> simp [outbound, setUse] <;> omega

theorem places_le_outbound (v : Account) (p : Port) : (v.use p).places ≤ v.outbound := by
  cases p <;> simp [outbound] <;> omega

theorem received_le_inbound (v : Account) (p : Port) : (if (v.use p).receives then 1 else 0) ≤ v.inbound := by
  cases p <;> simp [inbound] <;> omega

/-! ### What a step does to an account -/

variable {v : Account} {k : Custody} {p : Port}

/-- A port's change balances when the sums do. -/
theorem Balanced.setUse {j : Custody} {u : PortUse} (h : v.Balanced k)
    (refs : v.refs = (v.setUse p u).inbound + (v.setUse p u).outbound + j.refs)
    (free : v.free = true ↔ v.refs = 0 ∧ j.unplaced = false)
    (alone : (v.setUse p u).inbound = 0 ∨
      ((v.setUse p u).inbound = 1 ∧ (v.setUse p u).outbound = 0 ∧ j.refs = 0 ∧ j.unplaced = false))
    (apart : j.unplaced = true → (v.setUse p u).outbound = 0)
    (once : u.places ≤ 1) (sends : u.sends = true → u.places = 1) : (v.setUse p u).Balanced j where
  refs := refs
  free := free
  alone := alone
  apart := apart
  once q := by
    rw [setUse_use]
    split
    · exact once
    · exact h.once q
  sends q := by
    rw [setUse_use]
    split
    · exact sends
    · exact h.sends q

/-- A further reference to a buffer that is in someone's hands and in no one's reception. -/
theorem Balanced.addRef (h : v.Balanced k) (known : k.unplaced = true ∨ 0 < k.refs ∨ 0 < v.outbound) :
    Balanced ⟨k.refs + 1, k.unplaced⟩ { v with refs := v.refs + 1 } := by
  obtain ⟨refs, free, alone, apart, once, sends⟩ := h
  refine ⟨?_, ?_, ?_, apart, once, sends⟩ <;> simp only [inbound, outbound] at * <;> grind

/-- The release of a reference (R37). -/
theorem Balanced.dropRef (h : v.Balanced k) (held : 0 < k.refs) :
    Balanced ⟨k.refs - 1, false⟩
      { v with refs := if v.refs ≤ 1 then 0 else v.refs - 1, free := if v.refs ≤ 1 then true else v.free } := by
  obtain ⟨refs, free, alone, apart, once, sends⟩ := h
  refine ⟨?_, ?_, ?_, ?_, once, sends⟩ <;> simp only [inbound, outbound] at * <;> grind

/-- The grant of a free buffer (R38). -/
theorem Balanced.take (h : v.Balanced k) (free : v.free = true) :
    k = .nobody ∧ Balanced .fresh { v with free := false, refs := 0 } := by
  obtain ⟨refs, hf, alone, apart, once, sends⟩ := h
  obtain ⟨zero, unplaced⟩ := hf.mp free
  have out : v.outbound = 0 := by omega
  refine ⟨?_, ?_, by simp [Custody.fresh], .inl ?_, fun _ => out, once, sends⟩
  · obtain ⟨n, u⟩ := k
    simp only [Custody.nobody, Custody.mk.injEq]
    exact ⟨by simp only at refs; omega, unplaced⟩
  all_goals simp only [inbound, outbound, Custody.fresh] at *; omega

/-- The return of a buffer that got no reference (R39). -/
theorem Balanced.giveBack (h : v.Balanced .fresh) : Balanced .nobody { v with free := true, refs := 0 } := by
  obtain ⟨refs, free, alone, apart, once, sends⟩ := h
  refine ⟨?_, ?_, ?_, ?_, once, sends⟩ <;>
    simp only [inbound, outbound, Custody.nobody, Custody.fresh] at * <;> grind

/-- The passing of a frame to FE's hold list (R50). -/
theorem Balanced.handOver (h : v.Balanced .frame) : Balanced .nobody { v with held := v.held + 1 } := by
  obtain ⟨refs, free, alone, apart, once, sends⟩ := h
  refine ⟨?_, ?_, ?_, ?_, once, sends⟩ <;>
    simp only [inbound, outbound, Custody.nobody, Custody.frame] at * <;> grind

/-- The taking of a frame from FE's hold list (R50). -/
theorem Balanced.unhold {n : Nat} (h : v.Balanced k) (held : v.held = n + 1) :
    k = .nobody ∧ Balanced .frame { v with held := n } := by
  obtain ⟨refs, free, alone, apart, once, sends⟩ := h
  refine ⟨?_, ?_, ?_, ?_, ?_, once, sends⟩
  · obtain ⟨m, u⟩ := k
    simp only [inbound, outbound, Custody.nobody, Custody.mk.injEq] at *; grind
  all_goals simp only [inbound, outbound, Custody.frame] at *; grind

/-- A port begins to receive into a frame's buffer. -/
theorem Balanced.receive (h : v.Balanced .frame) (idle : (v.use p).receives = false) :
    (v.setUse p { v.use p with receives := true }).Balanced .nobody := by
  have hi := v.setUse_inbound p { v.use p with receives := true }
  have ho := v.setUse_outbound p { v.use p with receives := true }
  have ⟨refs, free, alone, apart, once, sends⟩ := h
  apply h.setUse <;> simp only [Custody.nobody, Custody.frame] at * <;> grind

/-- A reception ends, and leaves a frame with one reference. -/
theorem Balanced.unreceive (h : v.Balanced k) (busy : (v.use p).receives = true) :
    k = .nobody ∧ (v.setUse p { v.use p with receives := false }).Balanced .frame := by
  have hi := v.setUse_inbound p { v.use p with receives := false }
  have ho := v.setUse_outbound p { v.use p with receives := false }
  have hr := v.received_le_inbound p
  have ⟨refs, free, alone, apart, once, sends⟩ := h
  constructor
  · obtain ⟨m, u⟩ := k
    simp only [Custody.nobody, Custody.mk.injEq] at *; grind
  · apply h.setUse <;> simp only [Custody.frame] at * <;> grind

/-- A reference becomes that of a place in a queue without one (R42). -/
theorem Balanced.place {n : Nat} {x : Bool} (h : v.Balanced ⟨n + 1, x⟩) (empty : (v.use p).places = 0) :
    (v.setUse p { v.use p with places := 1 }).Balanced ⟨n, false⟩ := by
  have hi := v.setUse_inbound p { v.use p with places := 1 }
  have ho := v.setUse_outbound p { v.use p with places := 1 }
  have ⟨refs, free, alone, apart, once, sends⟩ := h
  apply h.setUse <;> simp only at * <;> grind

/-- `n` places leave a queue, and their references with them (R46, R47). -/
theorem Balanced.vacate {n : Nat} {u : PortUse} (h : v.Balanced k) (same : u.receives = (v.use p).receives)
    (places : u.places + n = (v.use p).places) (sends : u.sends = true → u.places = 1) :
    (v.setUse p u).Balanced ⟨k.refs + n, k.unplaced⟩ := by
  have hi := v.setUse_inbound p u
  have ho := v.setUse_outbound p u
  have hp := v.places_le_outbound p
  have h1 := h.once p
  have ⟨refs, free, alone, apart, _, _⟩ := h
  apply h.setUse <;> simp only [same] at * <;> grind

/-- A change of what a port sends, from a buffer with a place or from none. -/
theorem Balanced.resend {c : Bool} (h : v.Balanced k) (placed : c = true → (v.use p).places = 1) :
    (v.setUse p { v.use p with sends := c }).Balanced k :=
  h.vacate (n := 0) rfl rfl placed

/-- A buffer on the free list that no port names. -/
theorem balanced_unused {v : Account} (refs : v.refs = 0) (free : v.free = true) (held : v.held = 0)
    (use : ∀ p, v.use p = ⟨false, 0, false⟩) : v.Balanced .nobody := by
  have hi : v.inbound = 0 := by simp [inbound, use, held]
  have ho : v.outbound = 0 := by simp [outbound, use]
  exact ⟨by simp [refs, hi, ho, Custody.nobody], by simp [refs, free, Custody.nobody], .inl hi,
    fun _ => ho, by simp [use], by simp [use]⟩

end Account

end Sys2Proof.Machine
end

