-- ==== Sys2Proof/Proofs/PoolLedger.lean ====
section
/-! The ledger: every buffer's account balances, given what the event in progress holds. For each operation on the
pool and on the ports, what it makes of an account, and what it makes of the ledger. -/

namespace Sys2Proof.Machine

/-! ### What a state shows of a buffer -/

/-- What a trunk port has to do with a buffer. -/
def TrunkPort.use (p : TrunkPort) (b : Fin 48) : PortUse :=
  ⟨receives p.rx b, p.queue.placesOf b, p.tx.any fun x => x.origin == .buffer b⟩

/-- What the Zone Port has to do with a buffer. -/
def ZonePort.use (z : ZonePort) (b : Fin 48) : PortUse :=
  ⟨receives z.rx b, z.queue.placesOf b, z.shifter.any fun x => x.origin == .buffer b⟩

/-- What a port has to do with a buffer. -/
def State.use (s : State) (b : Fin 48) : Port → PortUse
  | .a => s.tpa.use b
  | .b => s.tpb.use b
  | .zone => s.zp.use b

/-- The account of a buffer in a state. -/
def State.account (s : State) (b : Fin 48) : Account :=
  { refs := (s.buf b).refs, free := (s.buf b).free, held := s.fe.hold.countP fun h => h.buf == b, use := s.use b }

@[simp] theorem State.account_refs (s : State) (b : Fin 48) : (s.account b).refs = (s.buf b).refs := rfl
@[simp] theorem State.account_free (s : State) (b : Fin 48) : (s.account b).free = (s.buf b).free := rfl
@[simp] theorem State.account_use (s : State) (b : Fin 48) (p : Port) : (s.account b).use p = s.use b p := rfl

theorem State.account_inbound (s : State) (b : Fin 48) : (s.account b).inbound = s.inbound b := rfl
theorem State.account_outbound (s : State) (b : Fin 48) : (s.account b).outbound = s.outbound b := rfl

@[simp] theorem State.use_trunk (s : State) (b : Fin 48) (t : Trunk) : s.use b t.port = (s.trunk t).use b := by
  cases t <;> rfl

@[simp] theorem State.use_zone (s : State) (b : Fin 48) : s.use b .zone = s.zp.use b := rfl

/-- The same buffers, ports and hold list show the same account. -/
theorem State.account_congr {s t : State} (tpa : t.tpa = s.tpa) (tpb : t.tpb = s.tpb) (zp : t.zp = s.zp)
    (bufs : t.pool.bufs = s.pool.bufs) (hold : t.fe.hold = s.fe.hold) : t.account = s.account := by
  funext b
  have use : t.use b = s.use b := by funext p; cases p <;> simp only [State.use, tpa, tpb, zp]
  simp only [State.account, State.buf, bufs, hold, use]

/-- A change of one buffer. -/
theorem State.modBuf_account (s : State) (b x : Fin 48) (f : Buffer → Buffer) :
    (s.modBuf b f).account x =
      if x = b then { s.account b with refs := (f (s.buf b)).refs, free := (f (s.buf b)).free } else s.account x := by
  have use : (s.modBuf b f).use x = s.use x := by funext p; cases p <;> rfl
  unfold State.account
  rw [use]
  split
  · next e => subst e; simp [State.buf, State.modBuf]
  · next e => simp [State.buf, State.modBuf, upd_get_ne _ _ _ _ e]

/-- A change of a trunk port. -/
theorem State.modTrunk_account (s : State) (t : Trunk) (f : TrunkPort → TrunkPort) (b : Fin 48) :
    (s.modTrunk t f).account b = (s.account b).setUse t.port ((f (s.trunk t)).use b) := by
  have use : (s.modTrunk t f).use b = put (s.use b) t.port ((f (s.trunk t)).use b) := by
    funext p; cases t <;> cases p <;> rfl
  simp [State.account, Account.setUse, State.buf, use]

/-- A change of the Zone Port. -/
theorem State.modZone_account (s : State) (f : ZonePort → ZonePort) (b : Fin 48) :
    (s.modZone f).account b = (s.account b).setUse .zone ((f s.zp).use b) := by
  have use : (s.modZone f).use b = put (s.use b) .zone ((f s.zp).use b) := by
    funext p; cases p <;> rfl
  simp [State.account, Account.setUse, State.buf, use]

/-! ### The queues -/

theorem insertPlace_countP (f : Place → Bool) (p : Place) (l : List Place) :
    (insertPlace p l).countP f = l.countP f + if f p then 1 else 0 := by
  induction l with
  | nil => simp [insertPlace, List.countP_cons]
  | cons q rest ih =>
    unfold insertPlace
    split
    · simp [List.countP_cons]
    · simp only [List.countP_cons, ih]; omega

@[simp] theorem Queue.accept_buffer_placesOf (q : Queue) (b x : Fin 48) (cls : Fin 4) (hop : BitVec 4) (r : Option Byte) :
    (q.accept (.buffer b cls hop r)).placesOf x = q.placesOf x + if x = b then 1 else 0 := by
  rcases Decidable.em (x = b) with rfl | e
  · simp [Queue.placesOf, Queue.accept, insertPlace_countP, Place.holds]
  · simp [Queue.placesOf, Queue.accept, insertPlace_countP, Place.holds, e, Ne.symm e]

@[simp] theorem Queue.accept_slot_placesOf (q : Queue) (c : Fin 4) (x : Fin 48) :
    (q.accept (.slot c)).placesOf x = q.placesOf x := by
  simp [Queue.placesOf, Queue.accept, insertPlace_countP, Place.holds]

@[simp] theorem Queue.dropBuffer_placesOf (q : Queue) (b x : Fin 48) :
    (q.dropBuffer b).placesOf x = if x = b then 0 else q.placesOf x := by
  unfold Queue.placesOf Queue.dropBuffer
  rw [List.countP_filter]
  split
  · next e => simp [e]
  · next e =>
    congr 1; funext p
    rcases p with ⟨⟨y, _, _, _⟩ | c, _⟩
    · by_cases hy : y = x <;> simp [Place.holds, hy, e]
    · simp [Place.holds]

@[simp] theorem Queue.dropSlot_placesOf (q : Queue) (c : Fin 4) (x : Fin 48) :
    (q.dropSlot c).placesOf x = q.placesOf x := by
  unfold Queue.placesOf Queue.dropSlot
  rw [List.countP_filter]
  congr 1; funext p
  rcases p with ⟨_ | _, _⟩ <;> simp [Place.holds, Place.isSlot]

@[simp] theorem Queue.clear_placesOf (q : Queue) (x : Fin 48) : q.clear.placesOf x = 0 := rfl

/-- Each place of an emptied queue is released once. -/
theorem Queue.buffers_count (q : Queue) (x : Fin 48) : q.buffers.count x = q.placesOf x := by
  unfold Queue.buffers Queue.placesOf
  induction q.places with
  | nil => rfl
  | cons p l ih =>
    rcases p with ⟨⟨y, _, _, _⟩ | c, _⟩ <;> simp [List.count_cons, List.countP_cons, Place.holds, ih]

/-! ### The ledger -/

/-- Every buffer's account balances with what the event in progress holds, and the Zone Port does not receive while it
sends. -/
structure Ledger (g : Fin 48 → Custody) (s : State) : Prop where
  line : s.zp.sending = true → s.zp.rx = none
  balanced : ∀ b, (s.account b).Balanced (g b)

/-- No event is in progress. -/
def Custody.idle : Fin 48 → Custody := fun _ => .nobody

/-- Between events the ledger is the law of the pool. -/
theorem poolLaw_iff_ledger (s : State) : PoolLaw s ↔ Ledger Custody.idle s := by
  constructor
  · rintro ⟨line, h⟩
    refine ⟨line, fun b => ?_⟩
    obtain ⟨refs, free, alone, qa, qb, qz, sa, sb, sz⟩ := h b
    refine ⟨refs, ?_, ?_, nofun, ?_, ?_⟩
    · simpa [Custody.idle, Custody.nobody] using free
    · simpa [Custody.idle, Custody.nobody, State.account_inbound, State.account_outbound] using alone
    · intro p; cases p <;> assumption
    · intro p; cases p <;> assumption
  · rintro ⟨line, h⟩
    refine ⟨line, fun b => ?_⟩
    obtain ⟨refs, free, alone, -, once, sends⟩ := h b
    refine ⟨refs, ?_, ?_, once .a, once .b, once .zone, sends .a, sends .b, sends .zone⟩
    · simpa [Custody.idle, Custody.nobody] using free
    · simpa [Custody.idle, Custody.nobody, State.account_inbound, State.account_outbound] using alone

variable {g : Fin 48 → Custody} {s t u : State} {b : Fin 48}

/-- A change of one buffer's account and of what is held of it. -/
theorem Ledger.change {k : Custody} (h : Ledger g s) (line : t.zp.sending = true → t.zp.rx = none)
    (others : ∀ x, x ≠ b → t.account x = s.account x) (self : (t.account b).Balanced k) :
    Ledger (put g b k) t where
  line := line
  balanced x := by
    rcases Decidable.em (x = b) with rfl | e
    · simpa using self
    · rw [put_of_ne _ _ e, others x e]; exact h.balanced x

/-- What an event took of a buffer is settled again. -/
theorem Ledger.settled {k : Custody} (h : Ledger (put (put g b k) b .nobody) s)
    (unheld : g b = .nobody) : Ledger g s := by
  rwa [put_idem, ← unheld, put_eq_self] at h

/-- From `s` to `t` every ledger is kept. -/
def KeepsPool (s t : State) : Prop := ∀ g, Ledger g s → Ledger g t

theorem KeepsPool.refl (s : State) : KeepsPool s s := fun _ h => h

theorem KeepsPool.trans (h : KeepsPool s t) (k : KeepsPool t u) : KeepsPool s u := fun g l => k g (h g l)

/-- The same buffers, ports and hold list. -/
theorem KeepsPool.of_same (tpa : t.tpa = s.tpa) (tpb : t.tpb = s.tpb) (zp : t.zp = s.zp)
    (bufs : t.pool.bufs = s.pool.bufs) (hold : t.fe.hold = s.fe.hold) : KeepsPool s t := fun _ h =>
  ⟨by rw [zp]; exact h.line, by rw [State.account_congr tpa tpb zp bufs hold]; exact h.balanced⟩

/-! ### Buffers (R37 to R39) -/

/-- A granted buffer was free, and is now in the event's hands alone. -/
theorem Ledger.takeBuffer {least : Nat} (h : Ledger g s) (e : s.takeBuffer least = some (b, t)) :
    g b = .nobody ∧ Ledger (put g b .fresh) t := by
  obtain ⟨-, first, rfl⟩ := State.takeBuffer_some e
  have free : (s.buf b).free = true := by simpa [State.buf] using List.find?_some first
  obtain ⟨unheld, fresh⟩ := (h.balanced b).take free
  refine ⟨unheld, h.change h.line (fun x e => ?_) ?_⟩
  · rw [State.modBuf_account, if_neg e]
  · simpa [State.modBuf_account] using fresh

/-- A change of a buffer's bytes and status. -/
theorem State.modBuf_keepsPool (s : State) (b : Fin 48) (f : Buffer → Buffer)
    (same : ∀ x, (f x).refs = x.refs ∧ (f x).free = x.free) : KeepsPool s (s.modBuf b f) := fun g h =>
  ⟨h.line, fun x => by
    rw [State.modBuf_account]
    split
    · next e => subst e; rw [(same _).1, (same _).2]; exact h.balanced x
    · exact h.balanced x⟩

theorem State.writeOwn_keepsPool (s : State) (b : Fin 48) (l : List Byte) : KeepsPool s (s.writeOwn b l) :=
  s.modBuf_keepsPool b _ fun _ => ⟨rfl, rfl⟩

theorem State.storeFrame_keepsPool (s : State) (b : Fin 48) (l : List Byte) (good long abort : Bool) :
    KeepsPool s (s.storeFrame b l good long abort) :=
  s.modBuf_keepsPool b _ fun _ => ⟨rfl, rfl⟩

theorem Ledger.giveBack (h : Ledger g s) (fresh : g b = .fresh) :
    Ledger (put g b .nobody) (s.giveBack b) := by
  have self := h.balanced b
  rw [fresh] at self
  refine h.change h.line (fun x e => ?_) ?_
  · rw [State.giveBack, State.modBuf_account, if_neg e]
  · simpa [State.giveBack, State.modBuf_account] using self.giveBack

theorem Ledger.addRef (h : Ledger g s)
    (known : (g b).unplaced = true ∨ 0 < (g b).refs ∨ 0 < (s.account b).outbound) :
    Ledger (put g b ⟨(g b).refs + 1, (g b).unplaced⟩) (s.addRef b) := by
  refine h.change h.line (fun x e => ?_) ?_
  · rw [State.addRef, State.modBuf_account, if_neg e]
  · simpa [State.addRef, State.modBuf_account] using (h.balanced b).addRef known

theorem State.dropRef_account (s : State) (b x : Fin 48) :
    (s.dropRef b).account x =
      if x = b then
        { s.account b with refs := if (s.buf b).refs ≤ 1 then 0 else (s.buf b).refs - 1
                           free := if (s.buf b).refs ≤ 1 then true else (s.buf b).free }
      else s.account x := by
  unfold State.dropRef
  split
  · exact (s.modBuf_account b x _).trans (by simp)
  · exact (s.modBuf_account b x _).trans (by simp)

theorem Ledger.dropRef (h : Ledger g s) (held : 0 < (g b).refs) :
    Ledger (put g b ⟨(g b).refs - 1, false⟩) (s.dropRef b) := by
  refine h.change (by simpa using h.line) (fun x e => ?_) ?_
  · rw [State.dropRef_account, if_neg e]
  · rw [State.dropRef_account, if_pos rfl]; exact (h.balanced b).dropRef held

/-- The frame that an event holds is dropped. -/
theorem Ledger.dropFrame (h : Ledger (put g b .frame) s) (unheld : g b = .nobody) :
    Ledger g (s.dropRef b) := by
  have d := h.dropRef (b := b) (by simp [Custody.frame])
  simp only [put_self] at d
  exact Ledger.settled d unheld

/-- The release of the references that left places of a list of buffers. -/
theorem Ledger.dropRefs {l : List (Fin 48)} (h : Ledger (fun x => ⟨(g x).refs + l.count x, (g x).unplaced⟩) s)
    (placed : ∀ x ∈ l, (g x).unplaced = false) : Ledger g (s.dropRefs l) := by
  induction l generalizing s with
  | nil => simpa [State.dropRefs] using h
  | cons b l ih =>
    refine ih (s := s.dropRef b) ?_ fun x m => placed x (List.mem_cons_of_mem b m)
    have rest : put (fun x => (⟨(g x).refs + (b :: l).count x, (g x).unplaced⟩ : Custody)) b
        ⟨(g b).refs + (b :: l).count b - 1, false⟩ = fun x => ⟨(g x).refs + l.count x, (g x).unplaced⟩ := by
      funext x
      rcases Decidable.em (x = b) with rfl | e
      · simp [placed x]
      · simp [put_of_ne _ _ e, List.count_cons_of_ne (Ne.symm e)]
    have d := h.dropRef (b := b) (by simp only [List.count_cons_self]; omega)
    rw [rest] at d
    exact d

end Sys2Proof.Machine
end

