-- ==== Sys2Proof/Proofs/PoolPorts.lean ====
section
/-! The ledger through the ports (chapter 2) and the offers of places (R44): receptions begin and end, places come and
go, transmissions begin. What the trunk ports and the Zone Port share is said once, for any port. -/

namespace Sys2Proof.Machine

variable {g : Fin 48 → Custody} {s t u : State} {b : Fin 48} {p : Port}

/-! ### Any port -/

/-- The places that leave a queue take their references with them, and `l` names each of them (R46, R47). -/
theorem Ledger.vacate {l : List (Fin 48)} {use : Fin 48 → PortUse} (h : Ledger g s)
    (line : t.zp.sending = true → t.zp.rx = none)
    (each : ∀ x, t.account x = (s.account x).setUse p (use x))
    (same : ∀ x, (use x).receives = (s.use x p).receives)
    (places : ∀ x, (use x).places + l.count x = (s.use x p).places)
    (sends : ∀ x, (use x).sends = true → (use x).places = 1) : Ledger g (t.dropRefs l) := by
  refine Ledger.dropRefs ⟨line, fun x => ?_⟩ fun x m => ?_
  · rw [each x]; exact (h.balanced x).vacate (same x) (places x) (sends x)
  · have placed : 0 < l.count x := List.count_pos_iff.mpr m
    have out := (s.account x).places_le_outbound p
    rw [State.account_use] at out
    have left := places x
    cases unplaced : (g x).unplaced with
    | false => rfl
    | true => have apart := (h.balanced x).apart unplaced; omega

/-- The one place of a buffer leaves a queue, and the port sends from no buffer (R46). -/
theorem Ledger.unplace (h : Ledger g s) (placed : (s.use b p).places = 1)
    (line : t.zp.sending = true → t.zp.rx = none)
    (each : ∀ x, t.account x =
      (s.account x).setUse p ⟨(s.use x p).receives, if x = b then 0 else (s.use x p).places, false⟩) :
    Ledger g (t.dropRef b) :=
  h.vacate (l := [b]) line each (fun _ => rfl)
    (fun x => by
      rcases Decidable.em (x = b) with rfl | e
      · simp [placed]
      · simp [e, List.count_cons_of_ne (Ne.symm e)])
    nofun

/-- A port changes what it sends, to frames that have a place or to none. -/
theorem Ledger.resend {c : Fin 48 → Bool} (h : Ledger g s) (line : t.zp.sending = true → t.zp.rx = none)
    (each : ∀ x, t.account x = (s.account x).setUse p { s.use x p with sends := c x })
    (placed : ∀ x, c x = true → 0 < (s.use x p).places) : Ledger g t :=
  ⟨line, fun x => by
    rw [each x]
    exact (h.balanced x).resend fun e => Nat.le_antisymm ((h.balanced x).once p) (placed x e)⟩

/-- A reference that the event holds becomes that of a place. -/
theorem Ledger.accept (h : Ledger g s) (held : 0 < (g b).refs) (empty : (s.use b p).places = 0)
    (line : t.zp.sending = true → t.zp.rx = none)
    (each : ∀ x, t.account x =
      (s.account x).setUse p { s.use x p with places := (s.use x p).places + if x = b then 1 else 0 }) :
    Ledger (put g b ⟨(g b).refs - 1, false⟩) t := by
  refine h.change line (fun x e => ?_) ?_
  · rw [each x]; exact Account.setUse_of_eq (by simp [e])
  · rw [each b]
    obtain ⟨n, hn⟩ : ∃ n, (g b).refs = n + 1 := ⟨_, (Nat.succ_pred_eq_of_pos held).symm⟩
    have self := h.balanced b
    rw [show g b = ⟨n + 1, (g b).unplaced⟩ by rw [← hn]] at self
    simpa [hn, empty] using self.place (p := p) (by simpa using empty)

/-- A reception into a buffer ends, and leaves the event a frame with one reference. -/
theorem Ledger.unreceive (h : Ledger g s) (line : t.zp.sending = true → t.zp.rx = none)
    (busy : ∀ x, (s.use x p).receives = (some b == some x))
    (each : ∀ x, t.account x = (s.account x).setUse p { s.use x p with receives := false }) :
    g b = .nobody ∧ Ledger (put g b .frame) t := by
  obtain ⟨unheld, frame⟩ := (h.balanced b).unreceive (p := p) (by simp [busy])
  refine ⟨unheld, h.change line (fun x e => ?_) (by rw [each b]; exact frame)⟩
  rw [each x]
  exact Account.setUse_of_eq (PortUse.with_receives (by simp [busy, Ne.symm e]))

theorem State.takeReception_use (s : State) (q : Port) (x : Fin 48) : (s.takeReception q).2.use x = s.use x := by
  funext p; cases p <;> simp [State.use]

/-- A port's request for a reception buffer leaves the state as it is, or a frame's buffer in the port's hands. -/
theorem Ledger.takeReception (h : Ledger g s) (q : Port) :
    ((s.takeReception q).1.buf = none ∧ (s.takeReception q).2 = s) ∨
      ∃ b, (s.takeReception q).1.buf = some b ∧ g b = .nobody ∧
        Ledger (put g b .frame) (s.takeReception q).2 := by
  unfold State.takeReception
  split
  · next b s1 e =>
    obtain ⟨unheld, fresh⟩ := h.takeBuffer e
    refine .inr ⟨b, rfl, unheld, ?_⟩
    have self := fresh.balanced b
    simp only [put_self] at self
    have zero : (s1.buf b).refs = 0 := by
      obtain ⟨-, -, rfl⟩ := State.takeBuffer_some e
      simp [State.buf, State.modBuf]
    have := fresh.change (b := b) (t := s1.modBuf b fun x =>
        { x with refs := 1, status := ⟨false, false, false, .port q⟩ }) (k := .frame) fresh.line
      (fun x e => by rw [State.modBuf_account, if_neg e])
      (by simpa [State.modBuf_account, zero, Custody.fresh, Custody.frame] using self.addRef (.inl rfl))
    rwa [put_idem] at this
  · exact .inl ⟨rfl, rfl⟩

/-- A port that receives nothing begins a reception (R20, R25). -/
theorem Ledger.receive {q : Port} (h : Ledger g s) (line : t.zp.sending = true → t.zp.rx = none)
    (idle : ∀ x, (s.use x p).receives = false)
    (each : ∀ x, t.account x = ((s.takeReception q).2.account x).setUse p
      { s.use x p with receives := (s.takeReception q).1.buf == some x }) : Ledger g t := by
  rcases h.takeReception q with ⟨whole, same⟩ | ⟨b, buf, unheld, frame⟩
  · refine ⟨line, fun x => ?_⟩
    rw [each x, whole, same, Account.setUse_of_eq (by simp [← idle x])]
    exact h.balanced x
  · refine Ledger.settled (frame.change (k := .nobody) line (fun x e => ?_) ?_) unheld
    · rw [each x, Account.setUse_of_eq]
      rw [State.account_use, State.takeReception_use]
      exact PortUse.with_receives (by simp [buf, idle x, Ne.symm e])
    · have self := frame.balanced b
      simp only [put_self] at self
      have := self.receive (p := p) (by simpa [State.takeReception_use] using idle b)
      rw [each b]
      simpa [buf, State.takeReception_use] using this

theorem State.handOver_account (s : State) (b x : Fin 48) (q : Port) :
    (s.handOver b q).account x =
      if x = b then { s.account b with held := (s.account b).held + 1 } else s.account x := by
  have use : (s.handOver b q).use x = s.use x := by funext p; cases p <;> rfl
  unfold State.account
  rw [use]
  split
  · next e => subst e; simp [State.buf, State.handOver]
  · next e => simp [State.buf, State.handOver, Ne.symm e]

/-- A frame that the event holds joins FE's hold list (R50). -/
theorem Ledger.handOver {q : Port} (h : Ledger (put g b .frame) s) (unheld : g b = .nobody) :
    Ledger g (s.handOver b q) := by
  have self := h.balanced b
  simp only [put_self] at self
  refine Ledger.settled (h.change (k := .nobody) h.line (fun x e => ?_) ?_) unheld
  · rw [State.handOver_account, if_neg e]
  · rw [State.handOver_account, if_pos rfl]; exact self.handOver

/-! ### Changes that no account shows -/

theorem State.modTrunk_keepsPool (s : State) (t : Trunk) (f : TrunkPort → TrunkPort)
    (same : ∀ b, (f (s.trunk t)).use b = (s.trunk t).use b) : KeepsPool s (s.modTrunk t f) := fun g h =>
  ⟨by simpa using h.line, fun b => by
    rw [State.modTrunk_account, Account.setUse_of_eq (by simp [same])]; exact h.balanced b⟩

theorem State.modZone_keepsPool (s : State) (f : ZonePort → ZonePort) (same : ∀ b, (f s.zp).use b = s.zp.use b)
    (line : (s.zp.sending = true → s.zp.rx = none) → (f s.zp).sending = true → (f s.zp).rx = none) :
    KeepsPool s (s.modZone f) := fun g h =>
  ⟨line h.line, fun b => by
    rw [State.modZone_account, Account.setUse_of_eq (by simp [same])]; exact h.balanced b⟩

theorem State.modChan_keepsPool (s : State) (c : Fin 4) (f : Channel → Channel) : KeepsPool s (s.modChan c f) :=
  .of_same rfl rfl rfl rfl rfl

/-! ### Trunk transmissions and offers (R22, R44) -/

theorem Queue.placesOf_head {q : Queue} {cls : Fin 4} {hop : BitVec 4} {r : Option Byte} {n : Nat} {l : List Place}
    (h : q.places = ⟨.buffer b cls hop r, n⟩ :: l) : 0 < q.placesOf b := by
  simp [Queue.placesOf, h, Place.holds]

theorem State.trunkBegin_keepsPool (s : State) (t : Trunk) : KeepsPool s (s.trunkBegin t) := by
  intro g h
  unfold State.trunkBegin
  split
  · next b cls hop r n l head =>
    refine h.resend (p := t.port) (c := fun x => TxOrigin.buffer b == .buffer x) (by simpa using h.line)
      (fun x => (State.modTrunk_account ..).trans (by simp [TrunkPort.use])) fun x e => ?_
    obtain rfl : b = x := by simpa using e
    simpa [TrunkPort.use] using Queue.placesOf_head head
  · exact h

theorem State.trunkBegin_use (s : State) (t : Trunk) (x : Fin 48) (q : Port) :
    ((s.trunkBegin t).use x q).places = (s.use x q).places := by
  unfold State.trunkBegin
  split
  · cases t <;> cases q <;> rfl
  · rfl

/-- An accepted trunk place has a reference of its own, and no other queue changes. -/
theorem Ledger.offerTrunk {k : Trunk} {cls : Fin 4} {hop : BitVec 4} (h : Ledger g s)
    (known : (g b).unplaced = true ∨ 0 < (g b).refs ∨ 0 < (s.account b).outbound)
    (empty : (s.use b k.port).places = 0) (e : s.offerTrunk k b cls hop = some u) :
    Ledger (put g b ⟨(g b).refs, false⟩) u ∧
      ∀ q, (u.use b q).places = if q = k.port then 1 else (s.use b q).places := by
  unfold State.offerTrunk at e
  split at e
  · have use : (s.addRef b).use = s.use := by funext x q; cases q <;> rfl
    have placed := (h.addRef known).accept (b := b) (p := k.port)
      (t := (s.addRef b).modTrunk k fun p => { p with queue := p.queue.accept (.buffer b cls hop none) })
      (by simp) (by rw [use]; exact empty) (by simpa using h.line)
      (fun x => (State.modTrunk_account ..).trans (by simp [TrunkPort.use]))
    rw [put_idem] at placed
    simp only [put_self, Nat.add_sub_cancel] at placed
    have places (q : Port) : ((((s.addRef b).modTrunk k fun p =>
        { p with queue := p.queue.accept (.buffer b cls hop none) }).use b q).places =
          if q = k.port then 1 else (s.use b q).places) := by
      cases k <;> cases q <;> simp_all [State.use, TrunkPort.use, State.modTrunk, Trunk.port]
    cases e
    split
    · exact ⟨State.trunkBegin_keepsPool _ _ _ placed, fun q => (State.trunkBegin_use ..).trans (places q)⟩
    · exact ⟨placed, places⟩
  · cases e

/-! ### Zone transmissions and offers (R26, R44) -/

theorem State.loadShifter_rx (s : State) : s.loadShifter.zp.rx = s.zp.rx := by
  have z := s.loadShifter_quiet.zp
  unfold ZoneQuiet at z
  rw [z]

theorem State.loadShifter_keepsPool (s : State) : KeepsPool s s.loadShifter := by
  intro g h
  unfold State.loadShifter
  split
  · exact h
  · next b cls hop r n l head =>
    refine h.resend (p := .zone) (c := fun x => ShifterOrigin.buffer b == .buffer x) h.line
      (fun x => (State.modZone_account ..).trans (by simp [ZonePort.use])) fun x e => ?_
    obtain rfl : b = x := by simpa using e
    simpa [ZonePort.use] using Queue.placesOf_head head
  · next c n rest head =>
    have same (x : Fin 48) : ({ s.zp.queue with places := rest } : Queue).placesOf x = s.zp.queue.placesOf x := by
      simp [Queue.placesOf, head, Place.holds]
    split
    · exact State.modZone_keepsPool _ _ (fun x => by simp [ZonePort.use, same]) (fun l => l) g h
    · next k _ =>
      have other (x : Fin 48) : (ShifterOrigin.slot c k.code == .buffer x) = false := by simp
      refine State.modChan_keepsPool _ _ _ g ?_
      exact h.resend (p := .zone) (c := fun _ => false) h.line
        (fun x => (State.modZone_account ..).trans (by simp [ZonePort.use, same, other])) nofun

theorem State.beginAttempt_keepsPool (s : State) (quiet : s.zp.rx = none) : KeepsPool s s.beginAttempt :=
  s.modZone_keepsPool _ (fun _ => rfl) fun _ _ => quiet

/-- An attempt begins on a line on which nothing is received (R26). -/
theorem ZonePort.canSend_rx {z : ZonePort} (h : z.canSend = true) : z.rx = none := by
  simp only [ZonePort.canSend, Bool.and_eq_true, Option.isNone_iff_eq_none] at h
  obtain ⟨⟨-, rx⟩, -⟩ := h
  exact rx

theorem State.zoneKick_keepsPool (s : State) : KeepsPool s s.zoneKick := by
  unfold State.zoneKick
  split
  · next e =>
    simp only [Bool.and_eq_true] at e
    obtain ⟨⟨can, -⟩, -⟩ := e
    dsimp only
    split
    · exact s.loadShifter_keepsPool.trans
        (State.beginAttempt_keepsPool _ (s.loadShifter_rx.trans (ZonePort.canSend_rx can)))
    · exact s.loadShifter_keepsPool
  · exact .refl s

/-- An accepted zone place has a reference of its own. -/
theorem Ledger.offerZone {cls : Fin 4} {hop : BitVec 4} {r : Option Byte} (h : Ledger g s)
    (known : (g b).unplaced = true ∨ 0 < (g b).refs ∨ 0 < (s.account b).outbound)
    (empty : (s.use b .zone).places = 0) (e : s.offerZone b cls hop r = some u) :
    Ledger (put g b ⟨(g b).refs, false⟩) u := by
  unfold State.offerZone at e
  split at e
  · have use : (s.addRef b).use = s.use := by funext x q; cases q <;> rfl
    have placed := (h.addRef known).accept (b := b) (p := .zone)
      (t := (s.addRef b).modZone fun z => { z with queue := z.queue.accept (.buffer b cls hop r) })
      (by simp) (by rw [use]; exact empty) h.line
      (fun x => (State.modZone_account ..).trans (by simp [ZonePort.use]))
    rw [put_idem] at placed
    simp only [put_self, Nat.add_sub_cancel] at placed
    cases e
    exact State.zoneKick_keepsPool _ _ placed
  · cases e

/-- A DRIVE command in its slot is no buffer's place (R45). -/
theorem State.writeSlot_keepsPool {c : Fin 4} {k : DriveCode} (e : s.writeSlot c k = some u) : KeepsPool s u := by
  unfold State.writeSlot at e
  dsimp only at e
  split at e
  · cases e
  · split at e <;> cases e
    · exact s.modChan_keepsPool _ _
    · refine ((s.modChan_keepsPool c _).trans (State.modZone_keepsPool _ _ (fun x => ?_) fun l => l)).trans
        (State.zoneKick_keepsPool _)
      simp [ZonePort.use]

theorem State.withdraw_keepsPool (s : State) (c : Fin 4) : KeepsPool s (s.withdraw c) :=
  (s.modZone_keepsPool _ (fun x => by simp [ZonePort.use]) fun l => l).trans (State.modChan_keepsPool _ _ _)

end Sys2Proof.Machine
end

