-- ==== Sys2Proof/Proofs/PoolFrames.lean ====
section
/-! The ledger through the frames the part sends of its own (R39): levels, notices and replies, each from a buffer that
is granted, written and offered within one event. -/

namespace Sys2Proof.Machine

variable {g : Fin 48 → Custody} {s t u : State} {b : Fin 48} {p : Port}

/-- A buffer without a place is in no queue. -/
theorem Ledger.places_of_unplaced (h : Ledger g s) (unplaced : (g b).unplaced = true) (p : Port) :
    (s.use b p).places = 0 := by
  have out := (s.account b).places_le_outbound p
  rw [(h.balanced b).apart unplaced] at out
  exact Nat.le_zero.mp out

theorem State.setMr_keepsPool (s : State) (m : Management) : KeepsPool s { s with mr := m } :=
  .of_same rfl rfl rfl rfl rfl

theorem State.setLbu_keepsPool (s : State) (v : Budget) : KeepsPool s { s with lbu := v } :=
  .of_same rfl rfl rfl rfl rfl

theorem State.setDs_keepsPool (s : State) (d : Drive) : KeepsPool s { s with ds := d } :=
  .of_same rfl rfl rfl rfl rfl

/-- Places of a buffer just granted on queues A and B. -/
theorem Ledger.offerBoth {cls : Fin 4} {hop : BitVec 4} (h : Ledger g s) (fresh : g b = .fresh)
    (e : s.offerBoth b cls hop = some u) : Ledger (put g b .nobody) u := by
  have unplaced : (g b).unplaced = true := by rw [fresh]; rfl
  have first {k : Trunk} {v : State} (f : s.offerTrunk k b cls hop = some v) :
      Ledger (put g b .nobody) v ∧
        ∀ q, (v.use b q).places = if q = k.port then 1 else (s.use b q).places := by
    have := h.offerTrunk (.inl unplaced) (h.places_of_unplaced unplaced _) f
    rwa [fresh] at this
  unfold State.offerBoth at e
  split at e
  · next v f =>
    cases e
    obtain ⟨lv, places⟩ := first f
    have placed : 0 < (v.account b).outbound :=
      Nat.lt_of_lt_of_le (by simp [places, Trunk.port]) ((v.account b).places_le_outbound .a)
    rcases f2 : v.offerTrunk .b b cls hop with _ | w
    · exact lv
    · have empty : (v.use b Trunk.b.port).places = 0 := by
        rw [places, if_neg (by decide)]; exact h.places_of_unplaced unplaced _
      obtain ⟨lw, -⟩ := lv.offerTrunk (.inr (.inr placed)) empty f2
      simpa [Custody.nobody] using lw
  · exact (first e).1

/-- The place of a reply from the buffer held for it (R161). -/
theorem Ledger.sendReply {o : Origin} {code tag : Byte} {st : Status} {data : List Byte} (h : Ledger g s)
    (fresh : g b = .fresh) (e : s.sendReply p b o code tag st data = some u) :
    Ledger (put g b .nobody) u := by
  have unplaced : (g b).unplaced = true := by rw [fresh]; rfl
  have hw := s.writeOwn_keepsPool b (replyFrame s o code tag st data) g h
  have empty (q : Port) := hw.places_of_unplaced unplaced q
  unfold State.sendReply State.offerReply at e
  cases p with
  | a => have := (hw.offerTrunk (.inl unplaced) (empty _) e).1; rwa [fresh] at this
  | b => have := (hw.offerTrunk (.inl unplaced) (empty _) e).1; rwa [fresh] at this
  | zone => have := hw.offerZone (.inl unplaced) (empty _) e; rwa [fresh] at this

theorem State.replyTry_keepsPool (s : State) : KeepsPool s s.replyTry := by
  intro g h
  unfold State.replyTry
  split
  · exact h
  · split
    · exact h
    · next b s1 taken =>
      obtain ⟨unheld, fresh⟩ := h.takeBuffer taken
      split
      · next s2 sent =>
        exact State.setMr_keepsPool _ _ g ((fresh.sendReply (by simp) sent).settled unheld)
      · exact h

theorem State.sendNotice_keepsPool {d : DestType} {b1 b2 : Byte} {n : Notice}
    (e : s.sendNotice d b1 b2 n = .sent u) : KeepsPool s u := by
  intro g h
  unfold State.sendNotice at e
  split at e
  · cases e
  · next b s1 taken =>
    obtain ⟨unheld, fresh⟩ := h.takeBuffer taken
    dsimp only at e
    split at e
    · next s2 sent =>
      cases e
      exact ((State.writeOwn_keepsPool _ _ _ _ fresh).offerBoth (by simp) sent).settled unheld
    · cases e

theorem State.popNotice_keepsPool (s : State) : KeepsPool s s.popNotice := s.setMr_keepsPool _

theorem State.waitForUp_keepsPool (s : State) : KeepsPool s s.waitForUp := s.setMr_keepsPool _

theorem State.noticeSentTo_keepsPool (s : State) (i : Fin 2) : KeepsPool s (s.noticeSentTo i) := by
  unfold State.noticeSentTo
  split
  · exact s.setMr_keepsPool _
  · exact s.popNotice_keepsPool

theorem State.noticeTryFor_keepsPool (fuel : Nat) (s : State) : KeepsPool s (State.noticeTryFor fuel s) := by
  induction fuel generalizing s with
  | zero => exact .refl s
  | succ fuel ih =>
    unfold State.noticeTryFor
    split
    · exact .refl s
    · split
      · exact .refl s
      · split
        · exact s.popNotice_keepsPool.trans (ih _)
        · split
          · exact .refl s
          · exact s.waitForUp_keepsPool
          · next e => exact ((State.sendNotice_keepsPool e).trans (State.popNotice_keepsPool _)).trans (ih _)
        · dsimp only
          split
          · exact .refl s
          · exact s.waitForUp_keepsPool
          · next e => exact ((State.sendNotice_keepsPool e).trans (State.noticeSentTo_keepsPool _ _)).trans (ih _)

theorem State.noticeTry_keepsPool (s : State) : KeepsPool s s.noticeTry := State.noticeTryFor_keepsPool _ s

theorem State.buildLevelSet_keepsPool {n : Fin 96} (e : s.buildLevelSet n = some u) : KeepsPool s u := by
  intro g h
  unfold State.buildLevelSet at e
  split at e
  · cases e
  · next b s1 taken =>
    obtain ⟨unheld, fresh⟩ := h.takeBuffer taken
    have written := State.writeOwn_keepsPool _ b (levelSetFrame s n) _ (State.setLbu_keepsPool s1
      { s1.lbu with loads := upd s1.lbu.loads n fun l => { l with due := false } } _ fresh)
    have unplaced : (put g b Custody.fresh b).unplaced = true := by simp [Custody.fresh]
    have := written.offerZone (.inl unplaced) (written.places_of_unplaced unplaced _) e
    rw [put_self] at this
    exact this.settled unheld

theorem State.levelTryOver_keepsPool (l : List (Fin 96)) (s : State) : KeepsPool s (s.levelTryOver l) := by
  induction l generalizing s with
  | nil => exact .refl s
  | cons n rest ih =>
    unfold State.levelTryOver
    split
    · split
      · next e => exact (State.buildLevelSet_keepsPool e).trans (ih _)
      · exact .refl s
    · exact ih s

theorem State.levelTry_keepsPool (s : State) : KeepsPool s s.levelTry := by
  unfold State.levelTry
  split
  · exact s.levelTryOver_keepsPool _
  · exact .refl s

end Sys2Proof.Machine
end

