-- ==== Sys2Proof/Proofs/PoolPortSteps.lean ====
section
/-! The ledger through the commands at the trunk ports and the Zone Port (chapter 2). -/

namespace Sys2Proof.Machine

variable {g : Fin 48 → Custody} {s t : State}

/-! ### Trunk ports (R17 to R23) -/

theorem State.reach_keepsPool (s : State) (d : Nat) : KeepsPool s (s.reach d) := .of_same rfl rfl rfl rfl rfl

theorem State.enteredUp_keepsPool (s : State) (k : Trunk) : KeepsPool s (s.enteredUp k) := by
  unfold State.enteredUp
  dsimp only
  refine KeepsPool.trans ?_ (State.noticeTry_keepsPool _)
  split
  · exact s.replyTry_keepsPool.trans (State.setMr_keepsPool _ _)
  · exact s.setMr_keepsPool _

/-- Changes of a trunk port's timers, link and counters. -/
theorem State.modTrunk_counters_keepsPool (s : State) (k : Trunk) (f : TrunkPort → TrunkPort)
    (same : ∀ p, (f p).rx = p.rx ∧ (f p).tx = p.tx ∧ (f p).queue = p.queue) : KeepsPool s (s.modTrunk k f) :=
  s.modTrunk_keepsPool k f fun b => by
    obtain ⟨rx, tx, queue⟩ := same (s.trunk k)
    simp only [TrunkPort.use, rx, tx, queue]

/-- A frame with a buffer ends at a trunk port: it goes back to the pool or on to FE (R21). -/
theorem State.endTrunkFrame_keepsPool (s : State) (k : Trunk) (b : Fin 48) (bytes : List Byte)
    (rx : (s.trunk k).rx = some ⟨some b⟩) : KeepsPool s (s.endTrunkFrame k b bytes) := by
  intro g h
  obtain ⟨unheld, frame⟩ := h.unreceive (p := k.port) (b := b) (t := s.modTrunk k fun p => { p with rx := none })
    (by simpa using h.line) (fun x => by rw [State.use_trunk]; simp [TrunkPort.use, receives, rx])
    (fun x => (State.modTrunk_account ..).trans (by simp [TrunkPort.use, receives]))
  have stored (good long : Bool) (f : TrunkPort → TrunkPort)
      (same : ∀ p, (f p).rx = p.rx ∧ (f p).tx = p.tx ∧ (f p).queue = p.queue) :=
    State.modTrunk_counters_keepsPool _ k f same _
      (State.storeFrame_keepsPool _ b (frameOf bytes) good long false _ frame)
  unfold State.endTrunkFrame
  dsimp only
  split
  · exact (stored false true (fun p => { p with counters := p.counters.addLong }) fun _ => ⟨rfl, rfl, rfl⟩).dropFrame
      unheld
  · exact (stored false false (fun p => { p with counters := p.counters.addBad }) fun _ => ⟨rfl, rfl, rfl⟩).dropFrame
      unheld
  · exact (stored false false (fun p => { p with counters := p.counters.addBad }) fun _ => ⟨rfl, rfl, rfl⟩).dropFrame
      unheld
  · have good := stored true false (fun p => { p with counters := p.counters.addGood }.heard s.now)
      fun _ => ⟨rfl, rfl, rfl⟩
    generalize (State.modTrunk _ k fun p => { p with counters := p.counters.addGood }.heard s.now) = v at good
    have passed : Ledger g (if frameKind bytes = kindBeat then v.dropRef b else v.handOver b k.port) := by
      split
      · exact good.dropFrame unheld
      · exact good.handOver unheld
    split
    · exact State.enteredUp_keepsPool _ k g passed
    · exact passed

theorem State.endTrunk_keepsPool (s : State) (k : Trunk) (bytes : List Byte) : KeepsPool s (s.endTrunk k bytes) := by
  unfold State.endTrunk
  split
  · exact .refl s
  · next rx => exact s.modTrunk_keepsPool k _ fun x => by simp [TrunkPort.use, receives, rx]
  · next rx => exact s.endTrunkFrame_keepsPool k _ bytes rx

theorem Quiet.trunk_rx (h : Quiet s t) (k : Trunk) : (t.trunk k).rx = (s.trunk k).rx := by
  cases k
  · have q := h.tpa; unfold TrunkQuiet at q; simp only [State.trunk]; rw [q]
  · have q := h.tpb; unfold TrunkQuiet at q; simp only [State.trunk]; rw [q]

theorem State.enteredUp_rx (s : State) (k : Trunk) : ((s.enteredUp k).trunk k).rx = (s.trunk k).rx := by
  unfold State.enteredUp
  dsimp only
  rw [(State.noticeTry_quiet _).trunk_rx]
  have same (v : State) (m : Management) : State.trunk { v with mr := m } k = v.trunk k := by cases k <;> rfl
  rw [same]
  split
  · exact s.replyTry_quiet.trunk_rx k
  · rfl

theorem State.endTrunk_rx (s : State) (k : Trunk) (bytes : List Byte) : ((s.endTrunk k bytes).trunk k).rx = none := by
  have kept (v : State) (b : Fin 48) (l : List Byte) (x y z : Bool) : (v.storeFrame b l x y z).trunk k = v.trunk k := by
    cases k <;> rfl
  have dropped (v : State) (b : Fin 48) : (v.dropRef b).trunk k = v.trunk k := by cases k <;> simp [State.trunk]
  have passed (v : State) (b : Fin 48) (q : Port) : (v.handOver b q).trunk k = v.trunk k := by cases k <;> rfl
  unfold State.endTrunk
  split
  · next rx => exact rx
  · simp
  · unfold State.endTrunkFrame
    dsimp only
    split
    · simp [kept, dropped]
    · simp [kept, dropped]
    · simp [kept, dropped]
    · split
      · rw [State.enteredUp_rx]
        split <;> simp [kept, dropped, passed, TrunkPort.heard]
      · split <;> simp [kept, dropped, passed, TrunkPort.heard]

theorem State.startTrunk_eq (s : State) (k : Trunk) (cut : List Byte) :
    s.startTrunk k cut = ((s.endTrunk k cut).takeReception k.port).2.modTrunk k fun p =>
      { p with
        rx := some ((s.endTrunk k cut).takeReception k.port).1
        counters := if ((s.endTrunk k cut).takeReception k.port).1.buf.isNone then p.counters.addNoBuffer
          else p.counters } := rfl

theorem State.startTrunk_keepsPool (s : State) (k : Trunk) (cut : List Byte) : KeepsPool s (s.startTrunk k cut) := by
  intro g h
  have rx := s.endTrunk_rx k cut
  have ended := s.endTrunk_keepsPool k cut g h
  rw [State.startTrunk_eq]
  generalize s.endTrunk k cut = v at rx ended
  refine ended.receive (p := k.port) (q := k.port) ?_ (fun x => ?_) fun x => ?_
  · simpa using ended.line
  · simp [TrunkPort.use, receives, rx]
  · refine (State.modTrunk_account ..).trans ?_
    rw [← v.takeReception_use k.port, State.use_trunk]
    simp [TrunkPort.use, receives]

/-- Entry to DOWN empties the queue and cuts a transmission off (R19). -/
theorem State.enterDown_keepsPool (s : State) (k : Trunk) : KeepsPool s (s.enterDown k) := fun g h =>
  h.vacate (p := k.port) (use := fun x => ⟨(s.use x k.port).receives, 0, false⟩) (by simpa using h.line)
    (fun x => (State.modTrunk_account ..).trans (by simp [TrunkPort.use])) (fun _ => rfl)
    (fun x => by simp [Queue.buffers_count, TrunkPort.use]) nofun

theorem State.silenceEnds_keepsPool (s : State) (k : Trunk) : KeepsPool s (s.silenceEnds k) := by
  unfold State.silenceEnds
  split
  · exact .refl s
  · exact (s.reach_keepsPool _).trans (State.enterDown_keepsPool _ k)

/-- A BEAT needs no buffer (R23). -/
theorem State.beatEnds_keepsPool (s : State) (k : Trunk) : KeepsPool s (s.beatEnds k) := by
  intro g h
  unfold State.beatEnds
  split
  · exact h
  · next d _ =>
    have h := s.reach_keepsPool d g h
    have other (x : Fin 48) : (TxOrigin.beat == .buffer x) = false := by simp
    exact h.resend (p := k.port) (c := fun _ => false) (by simpa using h.line)
      (fun x => (State.modTrunk_account ..).trans (by simp [TrunkPort.use, other])) nofun

theorem State.trunkNext_keepsPool (s : State) (k : Trunk) : KeepsPool s (s.trunkNext k) := by
  unfold State.trunkNext
  split
  · exact s.modTrunk_counters_keepsPool k _ fun _ => ⟨rfl, rfl, rfl⟩
  · exact s.trunkBegin_keepsPool k

/-- A transmission from a buffer had that buffer's place, which leaves the queue with its reference (R22, R46). -/
theorem State.trunkCompletes_keepsPool (s : State) (k : Trunk) : KeepsPool s (s.trunkCompletes k) := by
  intro g h
  unfold State.trunkCompletes
  split
  · exact h
  · next tx sending =>
    dsimp only
    split
    · refine State.trunkNext_keepsPool _ k g ?_
      exact h.resend (p := k.port) (c := fun _ => false) (by simpa using h.line)
        (fun x => (State.modTrunk_account ..).trans (by simp [TrunkPort.use])) nofun
    · next b origin =>
      have placed : (s.use b k.port).places = 1 :=
        (h.balanced b).sends k.port (by simp [TrunkPort.use, sending, origin])
      refine State.trunkNext_keepsPool _ k g (h.unplace placed (by simpa using h.line) fun x => ?_)
      rw [State.modTrunk_account, State.modTrunk_account]
      simp [Account.setUse, TrunkPort.use]

/-! ### Zone Port: reception (R24, R25) -/

theorem State.endZoneFrame_keepsPool (s : State) (b : Fin 48) (bytes : List Byte)
    (rx : s.zp.rx = some ⟨some b⟩) : KeepsPool s (s.endZoneFrame b bytes) := by
  intro g h
  obtain ⟨unheld, frame⟩ := h.unreceive (p := .zone) (b := b) (t := s.modZone fun z => { z with rx := none })
    (fun _ => rfl) (fun x => by simp [ZonePort.use, receives, rx])
    (fun x => (State.modZone_account ..).trans (by simp [ZonePort.use, receives]))
  have stored (good long abort : Bool) (f : Counters → Counters) :=
    State.modZone_keepsPool _ (fun z => { z with counters := f z.counters }) (fun _ => rfl) (fun l => l) _
      (State.storeFrame_keepsPool _ b (frameOf bytes) good long abort _ frame)
  unfold State.endZoneFrame
  dsimp only
  split
  · exact (stored _ _ _ Counters.addLong).dropFrame unheld
  · exact (stored _ _ _ Counters.addLong).dropFrame unheld
  · exact (stored _ _ _ Counters.addBad).dropFrame unheld
  · split
    · exact (stored _ _ _ Counters.addGood).dropFrame unheld
    · exact (stored _ _ _ Counters.addGood).handOver unheld

theorem State.endZone_keepsPool (s : State) (bytes : List Byte) : KeepsPool s (s.endZone bytes) := by
  unfold State.endZone
  split
  · exact .refl s
  · next rx => exact s.modZone_keepsPool _ (fun x => by simp [ZonePort.use, receives, rx]) fun _ _ => rfl
  · next rx => exact s.endZoneFrame_keepsPool _ bytes rx

theorem State.receiveZone_eq (s : State) :
    s.receiveZone = (s.takeReception .zone).2.modZone fun z =>
      { z with
        rx := some (s.takeReception .zone).1
        counters := if (s.takeReception .zone).1.buf.isNone then z.counters.addNoBuffer else z.counters } := rfl

/-- The Zone Port becomes a receiver, when it neither receives nor sends (R25, R27, R28). -/
theorem State.receiveZone_keepsPool (s : State) (idle : s.zp.rx = none) (still : s.zp.sending = false) :
    KeepsPool s s.receiveZone := by
  intro g h
  rw [State.receiveZone_eq]
  refine h.receive (p := .zone) (q := .zone) (by simp [still]) (fun x => ?_) fun x => ?_
  · simp [ZonePort.use, receives, idle]
  · exact (State.modZone_account ..).trans (by simp [ZonePort.use, receives])

theorem State.startZone_keepsPool (s : State) : KeepsPool s s.startZone := by
  have busy : KeepsPool s (s.modZone fun z => { z with lineIdle := false }) :=
    s.modZone_keepsPool _ (fun _ => rfl) fun l => l
  unfold State.startZone
  dsimp only
  split
  · next e =>
    obtain ⟨-, rx, still⟩ := e
    exact busy.trans (State.receiveZone_keepsPool _ rx still)
  · exact busy

/-! ### Zone Port: the line and the attempts (R24, R26 to R31) -/

theorem State.tryZone_keepsPool (s : State) : KeepsPool s s.tryZone := by
  unfold State.tryZone
  split
  · next e =>
    simp only [Bool.and_eq_true] at e
    exact s.beginAttempt_keepsPool (ZonePort.canSend_rx e.1)
  · exact s.zoneKick_keepsPool

theorem State.idleZone_keepsPool (s : State) (cut : List Byte) : KeepsPool s (s.idleZone cut) := by
  unfold State.idleZone
  split
  · exact .refl s
  · exact ((s.endZone_keepsPool cut).trans (State.modZone_keepsPool _ _ (fun _ => rfl) fun l => l)).trans
      (State.tryZone_keepsPool _)

/-- The levels of the line move no frame (R30, R31). -/
theorem State.goesDominant_keepsPool (s : State) : KeepsPool s (s.modZone fun z => z.goesDominant s.now) := by
  unfold ZonePort.goesDominant
  refine s.modZone_keepsPool _ (fun x => ?_) fun l => ?_
  · split <;> rfl
  · split <;> exact l

theorem State.goesRecessive_keepsPool (s : State) : KeepsPool s (s.modZone fun z => z.goesRecessive s.now) := by
  unfold ZonePort.goesRecessive
  refine s.modZone_keepsPool _ (fun x => ?_) fun l => ?_
  · split <;> rfl
  · split <;> exact l

/-- A port that gives up its attempt receives the rest of the frame (R27, R28). -/
theorem State.yieldLine_keepsPool (s : State) (f : ZonePort → ZonePort) (same : ∀ b, (f s.zp).use b = s.zp.use b)
    (sending : s.zp.sending = true) (rx : (f s.zp).rx = s.zp.rx) (still : (f s.zp).sending = false) :
    KeepsPool s (s.modZone f).receiveZone := fun g h =>
  State.receiveZone_keepsPool _ (rx.trans (h.line sending)) still g
    (s.modZone_keepsPool f same (fun _ e => by rw [still] at e; cases e) g h)

theorem State.loseArbitration_keepsPool (s : State) : KeepsPool s s.loseArbitration := by
  unfold State.loseArbitration
  split
  · next e => exact s.yieldLine_keepsPool _ (fun _ => rfl) e rfl rfl
  · exact .refl s

/-- A frame in the shifter from a buffer had that buffer's place, which leaves the queue with its reference
(R28, R29, R46). -/
theorem State.unloadShifter_keepsPool (s : State) (x : Shifter) (loaded : s.zp.shifter = some x) :
    KeepsPool s (s.unloadShifter x) := by
  intro g h
  unfold State.unloadShifter
  dsimp only
  split
  · next b origin =>
    have placed : (s.use b .zone).places = 1 :=
      (h.balanced b).sends .zone (by simp [ZonePort.use, loaded, origin])
    refine h.unplace placed h.line fun x => ?_
    rw [State.modZone_account, State.modZone_account]
    simp [Account.setUse, ZonePort.use]
  · exact h.resend (p := .zone) (c := fun _ => false) h.line
      (fun x => (State.modZone_account ..).trans (by simp [ZonePort.use])) nofun

/-! ### Zone Port: FAULTED and the segment reset (R30, R32) -/

theorem State.abandonZone_keepsPool (s : State) : KeepsPool s s.abandonZone := by
  intro g h
  unfold State.abandonZone
  split
  · exact h
  · next rx => exact s.modZone_keepsPool _ (fun x => by simp [ZonePort.use, receives, rx]) (fun _ _ => rfl) g h
  · next b rx =>
    obtain ⟨unheld, frame⟩ := h.unreceive (p := .zone) (b := b)
      (t := s.modZone fun z => { z with rx := none, counters := z.counters.addLong })
      (fun _ => rfl) (fun x => by simp [ZonePort.use, receives, rx])
      (fun x => (State.modZone_account ..).trans (by simp [ZonePort.use, receives]))
    exact frame.dropFrame unheld

theorem State.emptySegment_keepsPool (s : State) : KeepsPool s s.emptySegment := by
  intro g h
  have h := s.abandonZone_keepsPool g h
  unfold State.emptySegment
  dsimp only
  generalize s.abandonZone = v at h
  have emptied := h.vacate (p := .zone) (use := fun x => ⟨(v.use x .zone).receives, 0, false⟩)
    (t := v.modZone fun z => { z with shifter := none, sending := false, queue := z.queue.clear })
    (l := v.zp.queue.buffers) nofun (fun x => (State.modZone_account ..).trans (by simp [ZonePort.use]))
    (fun _ => rfl) (fun x => by simp [Queue.buffers_count, ZonePort.use]) nofun
  exact State.setDs_keepsPool _ _ g emptied

end Sys2Proof.Machine
end

