-- ==== Sys2Proof/Proofs/PoolEvents.lean ====
section
/-! The ledger through the events at the Drive Supervisor, the Interlock Evaluator, the Load Budget Unit and the Scene
Expander, and through the end of an event (Machine/Drive, Points, LoadBudget, Scenes, Settle). The blocks reach the ports
by command slots, level tries and notice tries alone. -/

namespace Sys2Proof.Machine

/-- From `e` to `f` every ledger is kept, and no RESTART is carried out. -/
structure EventKeepsPool (e f : Ev) : Prop where
  state : KeepsPool e.s f.s
  restarted : f.restarted = e.restarted

namespace EventKeepsPool

variable {e f k : Ev}

theorem refl (e : Ev) : EventKeepsPool e e := ⟨.refl _, rfl⟩

theorem trans (h : EventKeepsPool e f) (i : EventKeepsPool f k) : EventKeepsPool e k :=
  ⟨h.state.trans i.state, i.restarted.trans h.restarted⟩

/-- Either way. -/
theorem ite {p : Prop} [Decidable p] (h : EventKeepsPool e f) (i : EventKeepsPool e k) :
    EventKeepsPool e (if p then f else k) := by
  split
  · exact h
  · exact i

/-- The other marks of an event do not matter. -/
theorem marks (h : EventKeepsPool e f) (a b c : Bool) (l : List (Fin 4)) :
    EventKeepsPool e { f with noticed := a, dueSet := b, released := c, shedDone := l } := ⟨h.state, h.restarted⟩

end EventKeepsPool

/-- The operations of LBU touch no buffer, port or hold list. -/
theorem BudgetOnly.keepsPool {e f : Ev} (h : BudgetOnly e f) : EventKeepsPool e f :=
  ⟨by rw [h.state]; exact .of_same rfl rfl rfl rfl rfl, h.restarted⟩

/-- Nor do those of SX. -/
theorem ScenesOnly.keepsPool {e f : Ev} (h : ScenesOnly e f) : EventKeepsPool e f :=
  ⟨by rw [h.state]; exact .of_same rfl rfl rfl rfl rfl, h.restarted⟩

/-- The slot at an entry to FAULT (R129). -/
theorem State.faultSlot_keepsPool (s : State) (c : Fin 4) (x : FaultCause) : KeepsPool s (s.faultSlot c x) := by
  unfold State.faultSlot
  split
  · rcases h : s.writeSlot c .halt with _ | u
    · exact .refl s
    · exact State.writeSlot_keepsPool h
  · exact s.withdraw_keepsPool c

namespace Ev

theorem onState_keepsPool (e : Ev) (f : State → State) (h : KeepsPool e.s (f e.s)) : EventKeepsPool e (e.onState f) :=
  ⟨h, rfl⟩

theorem modChan_keepsPool (e : Ev) (c : Fin 4) (f : Channel → Channel) : EventKeepsPool e (e.modChan c f) :=
  ⟨e.s.modChan_keepsPool c f, rfl⟩

theorem toIdle_keepsPool (e : Ev) (c : Fin 4) : EventKeepsPool e (e.toIdle c) := e.modChan_keepsPool c _

theorem notice_keepsPool (e : Ev) (x : Cause) (a b : Nat) : EventKeepsPool e (e.notice x a b) :=
  (e.notice_only x a b).keepsPool

theorem releaseMotor_keepsPool (e : Ev) (c : Fin 4) : EventKeepsPool e (e.releaseMotor c) :=
  (e.releaseMotor_only c).keepsPool

/-! ### Faults and stops (R127 to R129) -/

theorem enterFault_keepsPool (e : Ev) (c : Fin 4) (x : FaultCause) : EventKeepsPool e (e.enterFault c x) := by
  have faulted : EventKeepsPool e (((e.onState fun s => s.faultSlot c x).modChan c fun y => y.faulted x).notice .fault
      c.val ((e.chan c).state.code * 256 + x.code)) :=
    ((e.onState_keepsPool _ (State.faultSlot_keepsPool _ c x)).trans (modChan_keepsPool _ c _)).trans
      (notice_keepsPool _ _ _ _)
  unfold enterFault
  dsimp only
  split
  · exact .refl e
  · split
    · exact faulted.trans (releaseMotor_keepsPool _ c)
    · exact faulted

/-- A walk over the channels, each step of which keeps the ledger. -/
theorem foldl_keepsPool {α : Type} (step : Ev → α → Ev) (keeps : ∀ e a, EventKeepsPool e (step e a)) (l : List α)
    (e : Ev) : EventKeepsPool e (l.foldl step e) := by
  induction l generalizing e with
  | nil => exact .refl e
  | cons a l ih => exact (keeps e a).trans (ih _)

theorem faultWhere_keepsPool (e : Ev) (test : State → Fin 4 → Bool) (x : FaultCause) :
    EventKeepsPool e (e.faultWhere test x) :=
  foldl_keepsPool _ (fun e c => .ite (e.enterFault_keepsPool c x) (.refl e)) _ e

theorem stopSequence_keepsPool (e : Ev) (c : Fin 4) (x : StopCause) : EventKeepsPool e (e.stopSequence c x) := by
  unfold stopSequence
  split
  · exact e.enterFault_keepsPool c _
  · next h => exact ⟨(State.writeSlot_keepsPool h).trans (State.modChan_keepsPool _ _ _), rfl⟩

theorem withdrawStart_keepsPool (e : Ev) (c : Fin 4) (x : StopCause) : EventKeepsPool e (e.withdrawStart c x) := by
  unfold withdrawStart
  refine EventKeepsPool.trans (.trans ?_ (releaseMotor_keepsPool _ c)) (modChan_keepsPool _ c _)
  split
  · exact e.onState_keepsPool _ (e.s.withdraw_keepsPool c)
  · exact .refl e

theorem stopRequest_keepsPool (e : Ev) (c : Fin 4) (x : StopCause) : EventKeepsPool e (e.stopRequest c x) := by
  unfold stopRequest
  split
  · split
    · exact e.stopSequence_keepsPool c x
    · exact e.withdrawStart_keepsPool c x
  · exact e.stopSequence_keepsPool c x
  · exact e.stopSequence_keepsPool c x
  all_goals exact .refl e

/-! ### Starts (R140 to R143) -/

theorem writeStart_keepsPool (e : Ev) (c : Fin 4) : EventKeepsPool e (e.writeStart c) := by
  have queued := e.modChan_keepsPool c fun x => { x with phase := .queued }
  unfold writeStart
  dsimp only
  split
  · next h => exact queued.trans ⟨State.writeSlot_keepsPool h, rfl⟩
  · exact queued.trans (enterFault_keepsPool _ c _)

theorem sheddingComplete_keepsPool (e : Ev) (c : Fin 4) : EventKeepsPool e (e.sheddingComplete c) := by
  unfold sheddingComplete
  split
  · exact e.writeStart_keepsPool c
  · exact .refl e

theorem driveCompleted_keepsPool (e : Ev) (c : Fin 4) (k : DriveCode) : EventKeepsPool e (e.driveCompleted c k) := by
  unfold driveCompleted
  split
  · exact (startInrush_only _ _).keepsPool.trans (modChan_keepsPool _ c _)
  · exact .refl e

theorem driveDropped_keepsPool (e : Ev) (c : Fin 4) (k : DriveCode) : EventKeepsPool e (e.driveDropped c k) := by
  unfold driveDropped
  split
  · exact e.enterFault_keepsPool c _
  · exact .refl e

theorem begin_keepsPool (e : Ev) (c : Fin 4) (shed : Bool) : EventKeepsPool e (e.begin c shed) := by
  unfold begin
  split
  · exact e.modChan_keepsPool c _
  · exact e.writeStart_keepsPool c

/-! ### MOTION verbs (R132 to R139) -/

/-- A verb that the checks of R133 pass, or answer with a notice. -/
theorem checked_keepsPool {e f : Ev} (c : Fin 4) (x : Option (Cause × Nat)) (h : EventKeepsPool e f) :
    EventKeepsPool e (match x with
      | some (cause, value) => e.notice cause c.val value
      | none => f) := by
  split
  · exact e.notice_keepsPool _ _ _
  · exact h

theorem verbArm_keepsPool (e : Ev) (c : Fin 4) (o : Origin) (d : Direction) : EventKeepsPool e (e.verbArm c o d) := by
  have busy := e.notice_keepsPool .busy c.val (originValue o)
  unfold verbArm
  dsimp only
  split
  · exact checked_keepsPool c _ (e.modChan_keepsPool c _)
  · exact .ite (checked_keepsPool c _ (e.modChan_keepsPool c _)) busy
  · exact busy
  · exact busy
  · exact busy
  · exact busy
  · exact busy
  · exact .refl e

theorem startRun_keepsPool (e : Ev) (c : Fin 4) : EventKeepsPool e (e.startRun c) := by
  unfold startRun
  dsimp only
  split
  · exact (e.toIdle_keepsPool c).trans (notice_keepsPool _ _ _ _)
  · split
    · exact (e.toIdle_keepsPool c).trans (notice_keepsPool _ _ _ _)
    · next h => exact ((askMotor_only h).keepsPool.trans (modChan_keepsPool _ c _)).trans (begin_keepsPool _ c _)

theorem verbRunContinue_keepsPool (e : Ev) (c : Fin 4) (o : Origin) :
    EventKeepsPool e (e.verbRunContinue c o) := by
  have notOwner := e.notice_keepsPool .notOwner c.val (originValue o)
  unfold verbRunContinue
  dsimp only
  split
  · exact .ite (e.startRun_keepsPool c) notOwner
  · exact .ite (.refl e) (.ite (e.modChan_keepsPool c _) notOwner)
  · exact .ite (e.modChan_keepsPool c _) notOwner
  all_goals exact .refl e

theorem verbRunFinish_keepsPool (e : Ev) (c : Fin 4) (o : Origin) : EventKeepsPool e (e.verbRunFinish c o) := by
  have notOwner := e.notice_keepsPool .notOwner c.val (originValue o)
  unfold verbRunFinish
  dsimp only
  split
  · exact .ite (e.toIdle_keepsPool c) notOwner
  · exact .ite (.refl e) (.ite (e.stopRequest_keepsPool c _) notOwner)
  · exact .ite (e.stopRequest_keepsPool c _) notOwner
  all_goals exact .refl e

theorem verbStop_keepsPool (e : Ev) (c : Fin 4) : EventKeepsPool e (e.verbStop c) := by
  unfold verbStop
  split
  · exact e.toIdle_keepsPool c
  · exact e.stopRequest_keepsPool c _
  · exact e.stopRequest_keepsPool c _
  · exact e.stopRequest_keepsPool c _
  all_goals exact .refl e

theorem verbCancel_keepsPool (e : Ev) (c : Fin 4) (o : Origin) : EventKeepsPool e (e.verbCancel c o) :=
  .ite (e.notice_keepsPool _ _ _) (e.verbStop_keepsPool c)

theorem verbJog_keepsPool (e : Ev) (c : Fin 4) (o : Origin) (d : Direction) : EventKeepsPool e (e.verbJog c o d) := by
  have busy := e.notice_keepsPool .busy c.val (originValue o)
  unfold verbJog
  dsimp only
  split
  · refine checked_keepsPool c _ ?_
    split
    · exact e.notice_keepsPool _ _ _
    · next h => exact ((askMotor_only h).keepsPool.trans (modChan_keepsPool _ c _)).trans (begin_keepsPool _ c _)
  · exact busy
  · exact busy
  · exact busy
  · exact busy
  · exact busy
  · exact busy
  · exact .refl e

theorem verbClear_keepsPool (e : Ev) (c : Fin 4) (o : Origin) : EventKeepsPool e (e.verbClear c o) :=
  .ite (.refl e) (.ite (e.toIdle_keepsPool c) (e.notice_keepsPool _ _ _))

theorem clearRequest_keepsPool (e : Ev) (c : Fin 4) : EventKeepsPool e (e.clearRequest c).2 := by
  unfold clearRequest
  split
  · exact .refl e
  · split
    · exact e.toIdle_keepsPool c
    · exact .refl e

theorem verb_keepsPool (e : Ev) (c : Fin 4) (o : Origin) (v : Verb) : EventKeepsPool e (e.verb c o v) := by
  cases v with
  | armA => exact e.verbArm_keepsPool c o .a
  | armB => exact e.verbArm_keepsPool c o .b
  | runContinue => exact e.verbRunContinue_keepsPool c o
  | runFinish => exact e.verbRunFinish_keepsPool c o
  | stop => exact e.verbStop_keepsPool c
  | cancel => exact e.verbCancel_keepsPool c o
  | jogA => exact e.verbJog_keepsPool c o .a
  | jogB => exact e.verbJog_keepsPool c o .b
  | clear => exact e.verbClear_keepsPool c o

theorem motionFrame_keepsPool (e : Ev) (o : Origin) (l : List Byte) : EventKeepsPool e (e.motionFrame o l) := by
  unfold motionFrame
  split
  · split
    · exact .ite (e.notice_keepsPool _ _ _) (.ite (e.notice_keepsPool _ _ _) (e.verb_keepsPool _ o _))
    · exact .refl e
  · exact .refl e

/-! ### Indications (R144, R145) -/

theorem indication_keepsPool (e : Ev) (c : Fin 4) (i : Indication) : EventKeepsPool e (e.indication c i) := by
  have rests : EventKeepsPool e ((e.releaseMotor c).toIdle c) :=
    (e.releaseMotor_keepsPool c).trans (toIdle_keepsPool _ c)
  have stops (x : StopCause) : EventKeepsPool e (e.stopSequence c x) := e.stopSequence_keepsPool c x
  unfold indication
  split
  · exact .ite (e.modChan_keepsPool c _) (.refl e)
  · exact .ite (stops _) (.refl e)
  · exact .ite (stops _) (.ite (e.modChan_keepsPool c _) (.refl e))
  · exact .ite (rests.trans (notice_keepsPool _ _ _ _)) (.ite (.ite (e.enterFault_keepsPool c _) rests) (.refl e))
  · exact e.enterFault_keepsPool c _

theorem driveFrame_keepsPool (e : Ev) (o : Origin) (l : List Byte) : EventKeepsPool e (e.driveFrame o l) := by
  unfold driveFrame
  split
  · split
    · unfold drive
      split
      · exact e.indication_keepsPool _ _
      · exact e.notice_keepsPool _ _ _
    · exact .refl e
  · exact .refl e

/-! ### Timers and lines (R134, R146 to R148) -/

theorem armEnds_keepsPool (e : Ev) (c : Fin 4) : EventKeepsPool e (e.armEnds c) :=
  (e.modChan_keepsPool c _).trans (.ite ((toIdle_keepsPool _ c).trans (notice_keepsPool _ _ _ _)) (.refl _))

theorem gapEnds_keepsPool (e : Ev) (c : Fin 4) : EventKeepsPool e (e.gapEnds c) :=
  (e.modChan_keepsPool c _).trans (stopRequest_keepsPool _ c _)

theorem startEnds_keepsPool (e : Ev) (c : Fin 4) : EventKeepsPool e (e.startEnds c) :=
  (e.modChan_keepsPool c _).trans (.ite (enterFault_keepsPool _ c _) (.refl _))

theorem stopEnds_keepsPool (e : Ev) (c : Fin 4) : EventKeepsPool e (e.stopEnds c) :=
  (e.modChan_keepsPool c _).trans (.ite (enterFault_keepsPool _ c _) (.refl _))

theorem travelEnds_keepsPool (e : Ev) (c : Fin 4) : EventKeepsPool e (e.travelEnds c) :=
  (e.modChan_keepsPool c _).trans (.ite (stopSequence_keepsPool _ c _) (.refl _))

theorem jogEnds_keepsPool (e : Ev) (c : Fin 4) : EventKeepsPool e (e.jogEnds c) :=
  (e.modChan_keepsPool c _).trans (.ite (stopSequence_keepsPool _ c _) (.refl _))

theorem loopOpens_keepsPool (e : Ev) : EventKeepsPool e e.loopOpens :=
  (e.onState_keepsPool _ (State.setDs_keepsPool _ _)).trans (faultWhere_keepsPool _ _ _)

theorem tripAsserts_keepsPool (e : Ev) (c : Fin 4) : EventKeepsPool e (e.tripAsserts c) :=
  (e.onState_keepsPool _ (State.setDs_keepsPool _ _)).trans (enterFault_keepsPool _ c _)

theorem branchTrips_keepsPool (e : Ev) (b : Fin 4) : EventKeepsPool e (e.branchTrips b) := by
  unfold branchTrips branchTripChannels
  exact ((e.onBudget_only _).trans (shedAll_only _ _ _)).keepsPool.trans (faultWhere_keepsPool _ _ _)

theorem branchRecovers_keepsPool (e : Ev) (b : Fin 4) : EventKeepsPool e (e.branchRecovers b) :=
  (e.onBudget_only _).keepsPool.marks _ _ _ _

/-! ### Points and conditions (R68 to R76, R151 to R156) -/

theorem conditionFalse_keepsPool (e : Ev) (ks : List (Fin 48)) (c : Fin 4) :
    EventKeepsPool e (e.conditionFalse ks c) := by
  rcases e.conditionFalse_cases ks c with ⟨-, same⟩ | ⟨k, -, -, told⟩
  · rw [same]; exact .refl e
  · rw [told]
    split
    · exact (e.notice_keepsPool _ _ _).trans (toIdle_keepsPool _ c)
    · exact (e.notice_keepsPool _ _ _).trans (stopRequest_keepsPool _ c _)

theorem reportFalse_keepsPool (e : Ev) (ks : List (Fin 48)) : EventKeepsPool e (e.reportFalse ks) :=
  foldl_keepsPool _ (fun e c => .ite (e.conditionFalse_keepsPool ks c) (.refl e)) _ e

theorem pointUpdated_keepsPool (e : Ev) (k : Fin 64) : EventKeepsPool e (e.pointUpdated k) :=
  e.reportFalse_keepsPool _

theorem sourceReport_keepsPool (e : Ev) (k : Fin 64) : EventKeepsPool e (e.sourceReport k) := by
  unfold sourceReport
  split
  · exact (e.setMode_only _).keepsPool
  · exact .refl e

theorem selectPoint_keepsPool (e : Ev) (k : Fin 64) : EventKeepsPool e (e.selectPoint k) :=
  (e.onBudget_only _).keepsPool.trans (sourceReport_keepsPool _ k)

theorem setPm_keepsPool (e : Ev) (f : State → PointMonitor) :
    EventKeepsPool e (e.onState fun s => { s with pm := f s }) :=
  e.onState_keepsPool _ (.of_same rfl rfl rfl rfl rfl)

theorem snoop_keepsPool (e : Ev) (o : Origin) (l : List Byte) : EventKeepsPool e (e.snoop o l) := by
  have fed := (e.setPm_keepsPool fun s => s.pm.feed o l s.now).trans
    (foldl_keepsPool pointUpdated pointUpdated_keepsPool (e.s.pm.fed o l.length) _)
  unfold snoop
  dsimp only
  split
  · exact fed
  · split
    · exact fed.trans (sourceReport_keepsPool _ _)
    · exact fed

theorem writePoint_keepsPool (e : Ev) (k : Fin 64) (r : PointCfg) : EventKeepsPool e (e.writePoint k r).2 := by
  have stored := e.setPm_keepsPool fun s => { points := upd s.pm.points k fun _ => ⟨r, .unknown⟩ }
  unfold writePoint
  split
  · exact .refl e
  · dsimp only
    split
    · exact stored.trans (pointUpdated_keepsPool _ k)
    · exact stored

theorem writeCondition_keepsPool (e : Ev) (k : Fin 48) (r : Condition) :
    EventKeepsPool e (e.writeCondition k r).2 := by
  unfold writeCondition
  split
  · exact .refl e
  · exact ⟨.of_same rfl rfl rfl rfl rfl, rfl⟩

theorem writePart0_keepsPool (e : Ev) (c : Fin 4) (r : ChanPart0) : EventKeepsPool e (e.writePart0 c r).2 := by
  unfold writePart0
  split
  · exact .refl e
  · split
    · exact .refl e
    · exact (e.onBudget_only _).keepsPool.trans (modChan_keepsPool _ c _)

theorem writePart_keepsPool (e : Ev) (c : Fin 4) (st : Status) (f : ChanCfg → ChanCfg) :
    EventKeepsPool e (e.writePart c st f).2 := by
  unfold writePart
  split
  · exact .refl e
  · exact e.modChan_keepsPool c _

/-! ### The end of an event (R84, R89, R101, R102, R169) -/

theorem settleRounds_keepsPool (fuel : Nat) (e : Ev) : EventKeepsPool e (e.settleRounds fuel) := by
  induction fuel generalizing e with
  | zero => exact .refl e
  | succ fuel ih =>
    have restored := e.restoreRound_only.keepsPool
    unfold settleRounds
    dsimp only
    split
    · exact restored
    · next c rest _ =>
      exact ((restored.marks _ _ _ rest).trans (sheddingComplete_keepsPool _ c)).trans (ih _)

theorem settle_keepsPool (e : Ev) : EventKeepsPool e e.settle := by
  have rounds := e.settleRounds_keepsPool 6
  unfold settle
  dsimp only
  split
  · exact ⟨rounds.state.trans (State.levelTry_keepsPool _), rounds.restarted⟩
  · exact rounds

theorem close_keepsPool (e : Ev) : KeepsPool e.s e.close := by
  unfold close
  dsimp only
  split
  · exact e.settle_keepsPool.state.trans (State.noticeTry_keepsPool _)
  · exact e.settle_keepsPool.state

/-! ### The segment (R30, R32, R104, R148) -/

theorem segmentFaults_keepsPool (e : Ev) : EventKeepsPool e e.segmentFaults := by
  unfold segmentFaults segmentChannels
  refine (EventKeepsPool.trans (e.onState_keepsPool _ ?_) (faultWhere_keepsPool _ _ _)).trans
    (notice_keepsPool _ _ _ _)
  exact e.s.emptySegment_keepsPool.trans (State.modZone_keepsPool _ _ (fun _ => rfl) fun l => l)

theorem segmentReset_keepsPool (e : Ev) : EventKeepsPool e e.segmentReset := by
  unfold segmentReset segmentChannels
  refine (EventKeepsPool.trans (e.onState_keepsPool _ ?_) (faultWhere_keepsPool _ _ _)).trans
    (budgetSegmentReset_only _).keepsPool
  exact e.s.emptySegment_keepsPool.trans (State.modZone_keepsPool _ _ (fun _ => rfl) fun l => l)

end Ev

/-! ### Commands that are events of these blocks -/

/-- An event that keeps the ledger, from its beginning to its end. -/
theorem KeepsPool.event {s t : State} {f : Ev} (h : KeepsPool s t) (k : EventKeepsPool t.event f) :
    KeepsPool s f.close := (h.trans k.state).trans f.close_keepsPool

theorem State.expire_keepsPool (s : State) (timer : Option Nat) (f : Ev → Ev) (keeps : ∀ e, EventKeepsPool e (f e)) :
    KeepsPool s (s.expire timer f) := by
  unfold State.expire
  split
  · exact .refl s
  · exact .event (s.reach_keepsPool _) (keeps _)

theorem State.fadeExpires_keepsPool (s : State) (n : Fin 96) : KeepsPool s (s.fadeExpires n) := by
  unfold State.fadeExpires
  split
  · exact .refl s
  · exact .event (s.reach_keepsPool _) (Ev.fadeEnds_only _ n).keepsPool
  · exact .event (s.reach_keepsPool _) (Ev.fadeEnds_only _ n).keepsPool

theorem State.inrushExpires_keepsPool (s : State) (n : Fin 96) : KeepsPool s (s.inrushExpires n) := by
  unfold State.inrushExpires
  split
  · exact .refl s
  · exact .refl s
  · exact .event (s.reach_keepsPool _) (Ev.inrushEnds_only _ n).keepsPool

theorem State.entryDue_keepsPool (s : State) : KeepsPool s s.entryDue := by
  unfold State.entryDue
  split
  · exact .refl s
  · exact .event (s.reach_keepsPool _) (Ev.dueEntry_only _ _).keepsPool

theorem State.stuckEnds_keepsPool (s : State) : KeepsPool s s.stuckEnds := by
  unfold State.stuckEnds
  split
  · exact .refl s
  · exact .event (s.reach_keepsPool _) (Ev.segmentFaults_keepsPool _)

theorem State.recoveryEnds_keepsPool (s : State) : KeepsPool s s.recoveryEnds := by
  unfold State.recoveryEnds
  split
  · exact .refl s
  · exact .event (s.reach_keepsPool _) (Ev.segmentReset_keepsPool _)

theorem State.setPool_keepsPool (s : State) (q : Pool) (h : q.bufs = s.pool.bufs) : KeepsPool s { s with pool := q } :=
  .of_same rfl rfl rfl h rfl

theorem State.lbuTakesRise_keepsPool (s : State) : KeepsPool s s.lbuTakesRise := by
  unfold State.lbuTakesRise
  split
  · exact .refl s
  · exact (s.setPool_keepsPool { s.pool with riseLbu := s.pool.riseLbu - 1 } rfl).trans (State.levelTry_keepsPool _)

theorem State.mrTakesRise_keepsPool (s : State) : KeepsPool s s.mrTakesRise := by
  unfold State.mrTakesRise
  split
  · exact .refl s
  · exact ((s.setPool_keepsPool { s.pool with riseMr := s.pool.riseMr - 1 } rfl).trans
      (State.replyTry_keepsPool _)).trans (State.noticeTry_keepsPool _)

/-- The frame in the shifter leaves it for good: completed, or dropped at its eighth bit error (R28, R29). -/
theorem State.dropZoneFrame_keepsPool (s : State) (x : Shifter) (loaded : s.zp.shifter = some x) :
    KeepsPool s (s.dropZoneFrame x) := by
  have failed : KeepsPool s ((s.unloadShifter x).modZone fun z => { z with counters := z.counters.addFailed }) :=
    (s.unloadShifter_keepsPool x loaded).trans (State.modZone_keepsPool _ _ (fun _ => rfl) fun l => l)
  unfold State.dropZoneFrame
  refine .event failed ((Ev.notice_keepsPool _ .txFailed 2 (txFailedValue x.bytes)).trans ?_)
  split
  · split
    · exact (Ev.levelSetReport_only _ _).keepsPool
    · exact .refl _
  · exact Ev.driveDropped_keepsPool _ _ _

theorem State.bitError_keepsPool (s : State) : KeepsPool s s.bitError := by
  unfold State.bitError
  split
  · exact .refl s
  · next x loaded =>
    split
    · exact .refl s
    · next sending =>
      have yields := s.yieldLine_keepsPool
        (fun z => { z with sending := false, shifter := some { x with attempts := x.attempts + 1 } })
        (fun _ => by simp [ZonePort.use, loaded]) (by simpa using sending) rfl rfl
      dsimp only
      split
      · exact yields
      · refine yields.trans (State.dropZoneFrame_keepsPool _ _ ?_)
        rw [State.receiveZone_eq]
        simp

theorem State.attemptCompletes_keepsPool (s : State) : KeepsPool s s.attemptCompletes := by
  unfold State.attemptCompletes
  split
  · exact .refl s
  · next x loaded =>
    have sent : KeepsPool s ((s.unloadShifter x).modZone fun z =>
        { z with sending := false, counters := z.counters.addSent }) :=
      (s.unloadShifter_keepsPool x loaded).trans (State.modZone_keepsPool _ _ (fun _ => rfl) nofun)
    split
    · exact .refl s
    · dsimp only
      refine .event sent ?_
      split
      · split
        · exact (Ev.levelSetReport_only _ _).keepsPool
        · exact .refl _
      · exact Ev.driveCompleted_keepsPool _ _ _

end Sys2Proof.Machine
end

