-- ==== Sys2Proof/Proofs/PoolKept.lean ====
section
/-! The ledger through the Management Responder and the Forwarding Engine, where an event holds a buffer of its own: the
reply's (R161), and the frame in classification (R40, R50). Then every command, and the statement. -/

namespace Sys2Proof.Machine

variable {g : Fin 48 → Custody} {s t : State} {b : Fin 48}

/-! ### Fresh parts: power-on reset and RESTART (R34, R48) -/

/-- A part whose buffers are all free and whose ports and hold list are empty. -/
theorem ledger_of_empty (bufs : ∀ b, (s.buf b).refs = 0 ∧ (s.buf b).free = true) (use : ∀ b p, s.use b p = ⟨false, 0, false⟩)
    (hold : s.fe.hold = []) (rx : s.zp.rx = none) : Ledger Custody.idle s :=
  ⟨fun _ => rx, fun b => Account.balanced_unused (bufs b).1 (bufs b).2 (by simp [State.account, hold]) (use b)⟩

theorem powerOn_ledger (pins : Pins) (now : Nat) (pending : List Instr) :
    Ledger Custody.idle (State.powerOn pins now pending) :=
  ledger_of_empty (fun b => by simp [State.buf, State.powerOn, Pool.atPowerOn])
    (fun b p => by cases p <;> rfl) rfl rfl

theorem restarted_ledger (s : State) (r : PendingReply) : Ledger Custody.idle (s.restarted r) :=
  ledger_of_empty (fun b => by simp [State.buf, State.restarted, Pool.restarted])
    (fun b p => by cases p <;> rfl) rfl rfl

/-! ### Requests (R159 to R167) -/

/-- The ledger after an event that may have carried out a RESTART, with which every hold ends (R167). -/
def Ev.Accounted (g : Fin 48 → Custody) (e : Ev) : Prop :=
  Ledger (if e.restarted then Custody.idle else g) e.s

theorem EventKeepsPool.accounted {e f : Ev} (k : EventKeepsPool e f) (h : e.Accounted g) : f.Accounted g := by
  unfold Ev.Accounted at *
  rw [k.restarted]
  exact k.state _ h

theorem State.clearOnRead_keepsPool (s : State) (item : StatusItem) (clear : Bool) :
    KeepsPool s (s.clearOnRead item clear) := by
  unfold State.clearOnRead State.clearCounters
  split
  · split
    · exact s.modTrunk_counters_keepsPool _ _ fun _ => ⟨rfl, rfl, rfl⟩
    · exact s.modTrunk_counters_keepsPool _ _ fun _ => ⟨rfl, rfl, rfl⟩
    · exact s.modZone_keepsPool _ (fun _ => rfl) fun l => l
  · exact .refl s

namespace Ev

theorem accounted_iff {e : Ev} (h : e.restarted = false) : e.Accounted g ↔ Ledger g e.s := by simp [Accounted, h]

theorem carryWrite_keepsPool (e : Ev) (w : WriteReq) : EventKeepsPool e (e.carryWrite w).2 := by
  cases w with
  | route i r => exact ⟨.of_same rfl rfl rfl rfl rfl, rfl⟩
  | load n r => exact (e.writeLoad_only n r).keepsPool
  | limit m r => exact (e.writeLimits_only m r).keepsPool
  | point k r => exact e.writePoint_keepsPool k r
  | condition k r => exact e.writeCondition_keepsPool k r
  | part0 c r => exact e.writePart0_keepsPool c r
  | part1 c r => exact e.writePart_keepsPool c _ _
  | part2 c r => exact e.writePart_keepsPool c _ _
  | part3 c a b => exact e.writePart_keepsPool c _ _
  | scene n r => exact (e.writeScene_only n r).keepsPool
  | action first r => exact (e.writeAction_only first r).keepsPool
  | manager i r => exact ⟨State.setMr_keepsPool _ _, rfl⟩
  | param x => exact ⟨.of_same rfl rfl rfl rfl rfl, rfl⟩

theorem assignZone_keepsPool (e : Ev) (z : Byte) : EventKeepsPool e (e.assignZone z).2 := by
  unfold assignZone
  split
  · exact ⟨State.setMr_keepsPool _ _, rfl⟩
  · split <;> exact .refl e

theorem carryOut_keepsPool (e : Ev) (r : Request) : EventKeepsPool e (e.carryOut r).ev := by
  match r with
  | .identify => exact .refl e
  | .assignZone z => exact e.assignZone_keepsPool z
  | .write w => exact e.carryWrite_keepsPool w
  | .read r => exact .refl e
  | .readStatus item clear => exact ⟨State.clearOnRead_keepsPool _ _ _, rfl⟩
  | .setManual m => exact (e.selectManual_only m).keepsPool
  | .setFromPoint k => exact e.selectPoint_keepsPool k
  | .recall n => exact (e.recallRequest_only n).keepsPool
  | .clear c => exact e.clearRequest_keepsPool c
  | .resetSegment => exact e.segmentReset_keepsPool
  | .restart => exact .refl e

/-- The reply goes out from the buffer held for it, or the buffer goes back (R161). -/
theorem reply_accounted {e : Ev} {src : Source} {code tag : Byte} {st : Status} {data : List Byte}
    (live : e.restarted = false) (h : Ledger (put g b .fresh) e.s) (unheld : g b = .nobody) :
    (e.reply src b code tag st data).Accounted g := by
  refine (accounted_iff (by exact live)).mpr (State.noticeTry_keepsPool _ g ?_)
  rcases sent : e.s.sendReply src.port b src.origin code tag st data with _ | u
  · exact (h.giveBack (by simp)).settled unheld
  · exact (h.sendReply (by simp) sent).settled unheld

theorem answer_accounted {e : Ev} (src : Source) (code tag : Byte) (d : Decoded) (live : e.restarted = false)
    (h : Ledger (put g b .fresh) e.s) (unheld : g b = .nobody) :
    (e.answer src b code tag d).Accounted g := by
  unfold answer
  split
  · exact (accounted_iff (by exact live)).mpr ((h.giveBack (by simp)).settled unheld)
  · exact reply_accounted live h unheld
  · exact State.replyTry_keepsPool _ _ (restarted_ledger _ _)
  · next r _ =>
    have carried := (e.carryOut_keepsPool r).trans (settle_keepsPool _)
    exact reply_accounted (carried.restarted.trans live) (carried.state _ h) unheld

theorem request_accounted {e : Ev} (src : Source) (payload : List Byte) (live : e.restarted = false)
    (h : Ledger g e.s) : (e.request src payload).Accounted g := by
  unfold request
  split
  · split
    · exact (accounted_iff live).mpr h
    · next taken =>
      obtain ⟨unheld, fresh⟩ := h.takeBuffer taken
      exact answer_accounted src _ _ _ live fresh unheld
  · exact (accounted_iff live).mpr h

/-- A frame for device 0 in the hands of the block that owns its kind (R54). -/
theorem consume_accounted {e : Ev} (kind : Fin 16) (src : Source) (payload : List Byte) (live : e.restarted = false)
    (h : Ledger g e.s) : (e.consume kind src payload).Accounted g := by
  have kept := (accounted_iff (g := g) live).mpr h
  unfold consume
  split
  · exact (e.levelReqFrame_only payload).keepsPool.accounted kept
  · split
    · exact (e.sceneFrame_only payload).keepsPool.accounted kept
    · split
      · exact (e.motionFrame_keepsPool _ payload).accounted kept
      · split
        · exact (e.driveFrame_keepsPool _ payload).accounted kept
        · split
          · exact request_accounted src payload live h
          · exact kept

end Ev

/-! ### Places of a classified frame (R59 to R62) -/

theorem passPlaces_nodup (p : Port) (hop initial : BitVec 4) :
    ((passPlaces p hop initial).map Prod.fst).Nodup := by
  unfold passPlaces
  split
  · split <;> simp
  · split <;> simp
  · simp

theorem trunkPlaces_nodup (a : Action) (p : Port) (hop initial : BitVec 4) :
    ((trunkPlaces a p hop initial).map Prod.fst).Nodup := by
  cases a with
  | pass => exact passPlaces_nodup p hop initial
  | copy => exact passPlaces_nodup p hop initial
  | uplink => simp [trunkPlaces]
  | deliver => simp [trunkPlaces]
  | drop => simp [trunkPlaces]

/-- The trunk offers of a frame that FE holds, to queues that do not have it. -/
theorem Ledger.offerTrunks {cls : Fin 4} {l : List (Trunk × BitVec 4)} (h : Ledger g s) (held : (g b).refs = 1)
    (once : (l.map Prod.fst).Nodup) (empty : ∀ k ∈ l.map Prod.fst, (s.use b k.port).places = 0)
    (zone : (s.use b .zone).places = 0) :
    (∃ x, Ledger (put g b ⟨1, x⟩) (s.offerTrunks b cls l)) ∧
      ((s.offerTrunks b cls l).use b .zone).places = 0 := by
  induction l generalizing g s with
  | nil =>
    refine ⟨⟨(g b).unplaced, ?_⟩, zone⟩
    rw [← held, put_eq_self]
    exact h
  | cons o l ih =>
    obtain ⟨k, hop⟩ := o
    simp only [List.map_cons, List.nodup_cons, List.mem_cons, forall_eq_or_imp] at once empty
    unfold State.offerTrunks
    rcases e : s.offerTrunk k b cls hop with _ | u
    · exact ih h held once.2 empty.2 zone
    · obtain ⟨lu, places⟩ := h.offerTrunk (.inr (.inl (by omega))) empty.1 e
      have other (j : Trunk) (m : j ∈ l.map Prod.fst) : j.port ≠ k.port := by
        intro same
        have : j = k := by cases j <;> cases k <;> simp_all [Trunk.port]
        exact once.1 (this ▸ m)
      have := ih lu (by simpa using held) once.2
        (fun j m => by rw [places, if_neg (other j m)]; exact empty.2 j m)
        (by rw [places, if_neg (by cases k <;> decide)]; exact zone)
      simpa only [put_idem, Option.getD_some] using this

/-- The offers of a frame in classification leave FE its hold. -/
theorem Ledger.place {h : Held} {a : Action} {rewrite : Option Byte}
    (l : Ledger (put g h.buf .frame) s) :
    ∃ x, Ledger (put g h.buf ⟨1, x⟩) (s.place h a rewrite) := by
  have empty (p : Port) : (s.use h.buf p).places = 0 := l.places_of_unplaced (by simp [Custody.frame]) p
  unfold State.place
  dsimp only
  generalize frameClass (s.buf h.buf).bytes = cls
  obtain ⟨⟨x, lt⟩, zone⟩ := l.offerTrunks (cls := cls) (by simp [Custody.frame])
    (trunkPlaces_nodup a h.port (frameHop (s.buf h.buf).bytes) s.fe.hopBudget) (fun _ _ => empty _) (empty .zone)
  rw [put_idem] at lt
  split
  · rcases e : State.offerZone (s.offerTrunks h.buf cls
      (trunkPlaces a h.port (frameHop (s.buf h.buf).bytes) s.fe.hopBudget)) h.buf cls (frameHop (s.buf h.buf).bytes)
      (if frameType (s.buf h.buf).bytes = .group then rewrite else none) with _ | u
    · exact ⟨x, lt⟩
    · have := lt.offerZone (.inr (.inl (by simp))) zone e
      simp only [put_idem, put_self] at this
      exact ⟨false, this⟩
  · exact ⟨x, lt⟩

/-! ### Classification (R50 to R54, R64) -/

/-- FE holds the frame it classifies to the end of the event, with or without places. -/
theorem Ev.classify_accounted {e : Ev} {h : Held} (live : e.restarted = false)
    (l : Ledger (put g h.buf .frame) e.s) :
    ∃ x, (e.classify h).Accounted (put g h.buf ⟨1, x⟩) := by
  have placed {f : Ev} (k : EventKeepsPool e f) (a : Action) (r : Option Byte) :
      ∃ x, (f.onState fun s => s.place h a r).Accounted (put g h.buf ⟨1, x⟩) := by
    obtain ⟨x, lx⟩ := (k.state _ l).place (a := a) (rewrite := r)
    exact ⟨x, (accounted_iff (e := f.onState _) (k.restarted.trans live)).mpr lx⟩
  unfold Ev.classify
  dsimp only
  split
  · exact ⟨true, (accounted_iff live).mpr l⟩
  · split
    · unfold Ev.classifyAssigned
      dsimp only
      have shown : EventKeepsPool e
          (if frameKind (e.s.buf h.buf).bytes = kindState then
            (e.snoop (frameOrigin (e.s.buf h.buf).bytes) (framePayload (e.s.buf h.buf).bytes)).settle else e) :=
        .ite ((e.snoop_keepsPool _ _).trans (settle_keepsPool _)) (.refl e)
      split
      · exact ⟨true, consume_accounted _ _ _ (shown.restarted.trans live) (shown.state _ l)⟩
      · exact placed shown _ _
    · unfold Ev.classifyUnassigned
      split
      · exact ⟨true, request_accounted _ _ live l⟩
      · exact placed (.refl e) _ _

theorem State.unhold_account (s : State) {h : Held} {rest : List Held} (hold : s.fe.hold = h :: rest) (x : Fin 48) :
    s.account x =
      { State.account { s with fe := { s.fe with hold := rest } } x with
        held := (State.account { s with fe := { s.fe with hold := rest } } x).held + if h.buf = x then 1 else 0 } := by
  have use : State.use { s with fe := { s.fe with hold := rest } } x = s.use x := by funext p; cases p <;> rfl
  simp [State.account, use, hold, List.countP_cons, State.buf]

theorem Ledger.unhold {h : Held} {rest : List Held} (l : Ledger g s) (hold : s.fe.hold = h :: rest) :
    g h.buf = .nobody ∧
      Ledger (put g h.buf .frame) { s with fe := { s.fe with hold := rest } } := by
  have self := s.unhold_account hold h.buf
  obtain ⟨unheld, frame⟩ := (l.balanced h.buf).unhold
    (n := (State.account { s with fe := { s.fe with hold := rest } } h.buf).held) (by rw [self]; simp)
  refine ⟨unheld, l.change l.line (fun x e => ?_) (by rw [self] at frame; exact frame)⟩
  rw [s.unhold_account hold x, if_neg (Ne.symm e)]
  rfl

theorem State.classifyHead_ledger (l : Ledger Custody.idle s) : Ledger Custody.idle s.classifyHead := by
  unfold State.classifyHead
  split
  · exact l
  · next h rest hold =>
    obtain ⟨unheld, frame⟩ := l.unhold hold
    obtain ⟨x, done⟩ := Ev.classify_accounted (e := State.event { s with fe := { s.fe with hold := rest } }) rfl frame
    unfold Ev.Accounted at done
    dsimp only
    split
    · next restarted =>
      rw [if_pos restarted] at done
      exact Ev.close_keepsPool _ _ done
    · next live =>
      rw [if_neg live] at done
      have dropped := (Ev.close_keepsPool _ _ done).dropRef (b := h.buf) (by simp)
      simp only [put_self] at dropped
      exact dropped.settled unheld

/-! ### Hand-offs by themselves (R52, R54, R64) -/

/-- After the end of an event no one holds a buffer, RESTART or not. -/
theorem Ev.Accounted.close {e : Ev} (h : e.Accounted Custody.idle) : Ledger Custody.idle e.close := by
  unfold Ev.Accounted at h
  rw [ite_self] at h
  exact e.close_keepsPool _ h

theorem State.handOff_ledger (l : Ledger Custody.idle s) (kind : Fin 16) (src : Source) (payload : List Byte) :
    Ledger Custody.idle (s.handOff kind src payload) := by
  unfold State.handOff
  split
  · exact l
  · split
    · exact (Ev.consume_accounted kind src payload rfl l).close
    · split
      · exact (Ev.request_accounted src payload rfl l).close
      · exact l

/-! ### Every step (R36, R37) -/

theorem exec_ledger {c : Instr} (l : Ledger Custody.idle s) (e : exec c s = .next t) : Ledger Custody.idle t := by
  cases c with
  | powerOnReset pins => cases e; exact powerOn_ledger pins _ _
  | trunkFrameStart k cut => cases e; exact s.startTrunk_keepsPool k cut _ l
  | trunkFrameEnd k bytes => cases e; exact s.endTrunk_keepsPool k bytes _ l
  | silenceTimerExpiry k => cases e; exact s.silenceEnds_keepsPool k _ l
  | beatTimerExpiry k => cases e; exact s.beatEnds_keepsPool k _ l
  | trunkTransmitComplete k => cases e; exact s.trunkCompletes_keepsPool k _ l
  | zoneFrameStart => cases e; exact s.startZone_keepsPool _ l
  | zoneFrameEnd bytes => cases e; exact s.endZone_keepsPool bytes _ l
  | zoneLineIdle cut => cases e; exact s.idleZone_keepsPool cut _ l
  | arbitrationLost => cases e; exact s.loseArbitration_keepsPool _ l
  | bitError => cases e; exact s.bitError_keepsPool _ l
  | zoneAttemptComplete => cases e; exact s.attemptCompletes_keepsPool _ l
  | lineGoesDominant => cases e; exact s.goesDominant_keepsPool _ l
  | lineGoesRecessive => cases e; exact s.goesRecessive_keepsPool _ l
  | stuckTimerExpiry => cases e; exact s.stuckEnds_keepsPool _ l
  | recoveryTimerExpiry => cases e; exact s.recoveryEnds_keepsPool _ l
  | lbuFreeCountRise => cases e; exact s.lbuTakesRise_keepsPool _ l
  | mrFreeCountRise => cases e; exact s.mrTakesRise_keepsPool _ l
  | classifyFrame => cases e; exact s.classifyHead_ledger l
  | fadeEnd n => cases e; exact s.fadeExpires_keepsPool n _ l
  | inrushEnd n => cases e; exact s.inrushExpires_keepsPool n _ l
  | branchTripAsserted b =>
    cases e
    split
    · exact l
    · exact KeepsPool.event (.refl s) (Ev.branchTrips_keepsPool _ b) _ l
  | branchTripReleased b =>
    cases e
    split
    · exact KeepsPool.event (.refl s) (Ev.branchRecovers_keepsPool _ b) _ l
    · exact l
  | dueEvent => cases e; exact s.entryDue_keepsPool _ l
  | armTimerExpiry c => cases e; exact s.expire_keepsPool _ _ (fun f => f.armEnds_keepsPool c) _ l
  | gapTimerExpiry c => cases e; exact s.expire_keepsPool _ _ (fun f => f.gapEnds_keepsPool c) _ l
  | startTimerExpiry c => cases e; exact s.expire_keepsPool _ _ (fun f => f.startEnds_keepsPool c) _ l
  | stopTimerExpiry c => cases e; exact s.expire_keepsPool _ _ (fun f => f.stopEnds_keepsPool c) _ l
  | travelTimerExpiry c => cases e; exact s.expire_keepsPool _ _ (fun f => f.travelEnds_keepsPool c) _ l
  | jogTimerExpiry c => cases e; exact s.expire_keepsPool _ _ (fun f => f.jogEnds_keepsPool c) _ l
  | estopLoopOpen =>
    cases e
    split
    · exact l
    · exact KeepsPool.event (.refl s) (Ev.loopOpens_keepsPool _) _ l
  | estopLoopClose => cases e; exact s.setDs_keepsPool _ _ l
  | driveTripAsserted c =>
    cases e
    split
    · exact l
    · exact KeepsPool.event (.refl s) (Ev.tripAsserts_keepsPool _ c) _ l
  | driveTripReleased c => cases e; exact s.setDs_keepsPool _ _ l
  | freshnessExpiry k => cases e; exact s.expire_keepsPool _ _ (fun f => f.reportFalse_keepsPool [k]) _ l
  | _ => cases e; exact State.handOff_ledger l _ _ _

theorem step_ledger (l : Ledger Custody.idle s) (e : step s = .next t) : Ledger Custody.idle t := by
  have waiting (n : Nat) (q : List Instr) : KeepsPool s { s with now := n, pending := q } :=
    .of_same rfl rfl rfl rfl rfl
  unfold step at e
  split at e
  · cases e; exact waiting _ _ _ l
  · next c rest _ => exact exec_ledger (waiting s.now rest _ l) e

/-- Settles O9: between events the law of the pool is the ledger with nothing held, which every step keeps. -/
theorem poolKept : Obligations.PoolKept := by
  unfold Obligations.PoolKept
  intro s t law e
  exact (poolLaw_iff_ledger t).mpr (step_ledger ((poolLaw_iff_ledger s).mp law) e)

end Sys2Proof.Machine
end

