-- ==== Sys2Proof/Proofs/RouteTable.lean ====
section
/-! The Route Table (R56 to R58): what each pattern field asks of a frame, and what decides a frame. -/

namespace Sys2Proof.Machine

/-! ### An entry fits a frame (R56) -/

theorem Ingress.fits_iff (g : Ingress) (p : Port) :
    g.fits p = true ↔ (g = .trunk → p = .a ∨ p = .b) ∧ (g = .zone → p = .zone) := by
  cases g with
  | any => simp [Ingress.fits]
  | zone => simp [Ingress.fits]
  | trunk => cases p <;> simp [Ingress.fits]

/-- The device or group byte counts only for a frame of a type that carries one. -/
theorem valueFits_iff (z d : Byte) (f : List Byte) :
    valueFits (z, d) f = true ↔ frameType f ≠ .shipAll ∧ byteAt f 1 = z ∧
      (frameType f = .device ∨ frameType f = .group → byteAt f 2 = d) := by
  unfold valueFits
  cases frameType f <;> simp

theorem Route.fits_iff (r : Route) (p : Port) (f : List Byte) : r.fits p f = true ↔
    r.valid = true ∧ (r.ingress = .trunk → p = .a ∨ p = .b) ∧ (r.ingress = .zone → p = .zone) ∧
    (∀ k, r.kind = some k → frameKind f = k) ∧ (∀ t, r.dtype = some t → frameType f = t) ∧
    (∀ z d, r.value = some (z, d) → frameType f ≠ .shipAll ∧ byteAt f 1 = z ∧
      (frameType f = .device ∨ frameType f = .group → byteAt f 2 = d)) ∧
    ∀ z, r.originZone = some z → byteAt f 3 = z := by
  simp only [Route.fits, Bool.and_eq_true, Ingress.fits_iff, Option.all_eq_true, Prod.forall, valueFits_iff, beq_iff_eq,
    eq_comm (b := frameKind f), eq_comm (b := frameType f), eq_comm (b := byteAt f 3), and_assoc]

/-! ### The entry that decides (R57), and the default (R58) -/

theorem addressedToZone_iff (f : List Byte) (z : Byte) :
    addressedToZone f z = true ↔ frameType f ≠ .shipAll ∧ byteAt f 1 = z := by
  simp [addressedToZone]

theorem defaultAction_eq (own : Byte) (p : Port) (f : List Byte) : defaultAction own p f =
    if p = .zone then (if frameType f ≠ .shipAll ∧ byteAt f 1 = own then .drop else .uplink)
    else if frameType f ≠ .shipAll ∧ byteAt f 1 = own then .deliver
    else if frameType f = .shipAll then .copy else .pass := by
  simp only [defaultAction, addressedToZone_iff]

/-- The table searched in order finds the entry of least index that fits. -/
theorem routes_find?_eq_some {v : Vector Route 64} {fits : Route → Bool} {r : Route}
    (found : v.toList.find? fits = some r) :
    ∃ i : Fin 64, v[i.val] = r ∧ fits v[i.val] = true ∧ ∀ j : Fin 64, j < i → fits v[j.val] = false := by
  obtain ⟨fit, i, lt, at_i, before⟩ := List.find?_eq_some_iff_getElem.mp found
  rw [Vector.getElem_toList] at at_i
  refine ⟨⟨i, Vector.length_toList (xs := v) ▸ lt⟩, at_i, at_i ▸ fit, fun j less => ?_⟩
  have misfit := before j.val less
  rwa [Vector.getElem_toList, Bool.not_eq_true'] at misfit

theorem routes_find?_eq_none {v : Vector Route 64} {fits : Route → Bool} (missed : v.toList.find? fits = none)
    (i : Fin 64) : fits v[i.val] = false :=
  Bool.eq_false_iff.mpr (List.find?_eq_none.mp missed _ (Vector.mem_toList_iff.mpr (Vector.getElem_mem i.isLt)))

/-- Settles O28: the search of the table finds the first entry that fits, or none; an entry fits field by field. -/
theorem routeDecides : Obligations.RouteDecides := by
  unfold Obligations.RouteDecides
  refine ⟨fun s p f => ?_, Route.fits_iff⟩
  cases search : s.fe.routes.toList.find? (fun r => r.fits p f) with
  | some r =>
    obtain ⟨i, at_i, fit, first⟩ := routes_find?_eq_some search
    exact .inl ⟨i, fit, first, by simp only [routeOf, search, at_i]⟩
  | none => exact .inr ⟨routes_find?_eq_none search, by simp only [routeOf, search, defaultAction_eq]⟩

end Sys2Proof.Machine
end
